-- ==== Sys2Proof/Word.lean ====
section
/-! DEFINITION. The byte and word types, the port index and the two-element array of the bridge
(spec/00_scope.md R7; spec/10_state.md R24). -/

namespace Sys2Proof

/-- `u8` (R7). -/
abbrev Byte := BitVec 8

/-- `u16` (R7). -/
abbrev Half := BitVec 16

/-- A port number `p` or channel number `c`, in {0, 1} (R7); channel `c` is paired with port `p = c`. -/
inductive Port where
  | p0
  | p1
deriving DecidableEq, Repr

/-- The other port, `1 - p`. -/
def Port.other : Port → Port
  | .p0 => .p1
  | .p1 => .p0

/-- A fixed-size array indexed by port number (R230: "a fixed-size array indexed by port number"). -/
structure Two (α : Type) where
  at0 : α
  at1 : α
deriving DecidableEq, Repr

/-- `x[p]` (R8). -/
def Two.get {α : Type} (t : Two α) : Port → α
  | .p0 => t.at0
  | .p1 => t.at1

/-- `x[p] <- f(x[p])`. -/
def Two.modify {α : Type} (t : Two α) (p : Port) (f : α → α) : Two α :=
  match p with
  | .p0 => { t with at0 := f t.at0 }
  | .p1 => { t with at1 := f t.at1 }

/-- The array with the same value at both indices. -/
def Two.both {α : Type} (a : α) : Two α := { at0 := a, at1 := a }

end Sys2Proof
end

