-- ==== Sys2Proof/Config.lean ====
section
/-! DEFINITION. What an implementation fixes: the parameters of spec/00_scope.md R6 and their
reference assignment, the line-coding and framing records, and the one free value of the model
(a buffer byte that no step has written, spec/93_implementation_defined.md U3). -/

namespace Sys2Proof

/-- The 7-byte line coding of a port by field (R25, R42, R104). Every value of every field is legal and
is read back as written, so the record holds exactly the 56 bits of `LC[0..7)`. -/
structure LineCoding where
  /-- `LC[0..4)`, little-endian. -/
  baudRate : BitVec 32
  /-- `LC[4]`. -/
  stopCode : Byte
  /-- `LC[5]`. -/
  parityCode : Byte
  /-- `LC[6]`. -/
  dataBits : Byte
deriving DecidableEq, Repr

/-- "word length 7-9 bits" (R36). -/
inductive WordLength where
  | seven
  | eight
  | nine
deriving DecidableEq, Repr

/-- "1 or 2 stop bits" (R36). -/
inductive StopBits where
  | one
  | two
deriving DecidableEq, Repr

/-- "parity none/odd/even" (R36). -/
inductive Parity where
  | none
  | odd
  | even
deriving DecidableEq, Repr

/-- The UART configuration record (R36). -/
structure UartCfg where
  baud : BitVec 32
  wordLen : WordLength
  stop : StopBits
  parity : Parity
deriving DecidableEq, Repr

/-- Which of the two bulk packet sizes of the source applies (R6 `MAX_PACKET`, D7). -/
inductive UsbSpeed where
  | full
  | high
deriving DecidableEq, Repr

/-- "max packet size 64 bytes full-speed / 512 bytes high-speed" (R6, R111). -/
def UsbSpeed.maxPacket : UsbSpeed → Nat
  | .full => 64
  | .high => 512

/-- The OPEN parameters of R6. They are arguments of the model: a state carries them, no step changes
them, and a statement about every state is a statement about every assignment (log entry 2). -/
structure Params where
  /-- `RING_CAP`. -/
  ringCap : Nat
  /-- Fixes `MAX_PACKET`. -/
  speed : UsbSpeed
  /-- `CTRL_BUF_CAP`. -/
  ctrlBufCap : Nat
  /-- `CMD_IF[p]`. -/
  cmdIf : Two Byte
  /-- `DATA_IF[p]`. -/
  dataIf : Two Byte
  /-- `EP_IN[p]`. -/
  epIn : Two Byte
  /-- `EP_OUT[p]`. -/
  epOut : Two Byte
  /-- `EP_CMD[p]`. -/
  epCmd : Two Byte
  /-- `ZLP_OUT_REARM`. -/
  zlpOutRearm : Bool
deriving DecidableEq, Repr

/-- `MAX_PACKET` (R6). -/
def Params.maxPacket (p : Params) : Nat := p.speed.maxPacket

/-- `INTR_MAX_PACKET` (R6: 64). -/
def Params.intrMaxPacket : Nat := 64

/-- The constraints R6 puts on the open parameters: `RING_CAP >= 2`, `CTRL_BUF_CAP >= 7`, the six
endpoint addresses pairwise distinct, the four interface numbers pairwise distinct. -/
abbrev Params.Valid (p : Params) : Prop :=
  2 ≤ p.ringCap ∧ 7 ≤ p.ctrlBufCap ∧
  [p.epIn.at0, p.epIn.at1, p.epOut.at0, p.epOut.at1, p.epCmd.at0, p.epCmd.at1].Nodup ∧
  [p.cmdIf.at0, p.cmdIf.at1, p.dataIf.at0, p.dataIf.at1].Nodup

/-- The reference assignment of R6, "the one every test vector of 95_test_vectors.md uses"
(DESIGN CHOICE for `State.reset`, log entry 2). -/
def Config.reference : Params where
  ringCap := 256
  speed := .full
  ctrlBufCap := 64
  cmdIf := { at0 := 0, at1 := 2 }
  dataIf := { at0 := 1, at1 := 3 }
  epIn := { at0 := 0x81, at1 := 0x83 }
  epOut := { at0 := 0x01, at1 := 0x03 }
  epCmd := { at0 := 0x82, at1 := 0x84 }
  zlpOutRearm := false

/-- `LC_DEFAULT`: 115200 baud, stop code 0, parity code 0, 8 data bits (R6, D9). -/
def Config.lcDefault : LineCoding where
  baudRate := 115200
  stopCode := 0
  parityCode := 0
  dataBits := 8

/-- `{115200, 8, 1, none}`, the reset value of `uart_cfg[c]` (R36, R47). -/
def Config.uartCfgDefault : UartCfg where
  baud := 115200
  wordLen := .eight
  stop := .one
  parity := .none

/-- The four buffer kinds (R60); each exists once per port or channel. -/
inductive Buffer where
  | rxRing
  | txBuf
  | rxBuf
  | ctrlBuf
deriving DecidableEq, Repr

/-- The capacity of a buffer: `RING_CAP`, `TXBUF_CAP = RING_CAP`, `RXBUF_CAP = MAX_PACKET`,
`CTRL_BUF_CAP` (R6, R60). -/
def Params.capacity (p : Params) : Buffer → Nat
  | .rxRing => p.ringCap
  | .txBuf => p.ringCap
  | .rxBuf => p.maxPacket
  | .ctrlBuf => p.ctrlBufCap

/-- FREE VALUE (log entry 3). The byte at an index of a buffer that no step has written since the last
RESET: "any value per byte, fixed from reset until first written" (U3, R39). The first argument
counts the RESETs, since each makes the contents unspecified again (R220). -/
opaque Config.unwrittenByte (resets : Nat) (b : Buffer) (p : Port) (i : Nat) : Byte

end Sys2Proof
end

