-- ==== Sys2Proof/Syntax.lean ====
section
/-! DEFINITION. The instructions of the bridge: one constructor for each of the 28 rows of
spec/opcode_table.json, that is the thirteen event kinds (spec/30_encoding.md R92), the five paths of
a setup packet (R100) and its ten class requests (R101). -/

namespace Sys2Proof

/-- `dir`, bit 7 of `bmRequestType` (R99). -/
inductive Dir where
  | hostToDevice
  | deviceToHost
deriving DecidableEq, Repr

/-- `type`, bits 6:5 of `bmRequestType` (R99). -/
inductive ReqType where
  | standard
  | classType
  | vendor
  | reserved
deriving DecidableEq, Repr

/-- The 8-byte USB setup packet by field (R98, R99). -/
structure SetupPacket where
  dir : Dir
  reqType : ReqType
  /-- Bits 4:0 of `bmRequestType`; no rule reads them (R123). -/
  recipient : BitVec 5
  bRequest : Byte
  /-- No rule reads it (R106). -/
  wValue : Half
  wIndex : Half
  wLength : Half
deriving DecidableEq, Repr

/-- What a setup packet of type class holds beside its type and its request code. -/
structure ClassRequest where
  dir : Dir
  recipient : BitVec 5
  wValue : Half
  wIndex : Half
  wLength : Half
deriving DecidableEq, Repr

/-- The instruction set: what can step the block (R1, R9). A constructor's operands are its row's
fields that the row leaves free.

The rows from `pathClassNodata` on are SETUP events named by the path the packet takes (the table's
SETUP_PATH format) or by the class request it makes (SETUP_CLASS format); see log entry 1. -/
inductive Instr where
  /-- RESET, kind `0x00`. -/
  | reset
  /-- CONFIGURE, kind `0x01`. -/
  | configure
  /-- DECONFIGURE, kind `0x02`. -/
  | deconfigure
  /-- SETUP, kind `0x03`. -/
  | setup (pkt : SetupPacket)
  /-- CTRL_DATA_COMPLETE, kind `0x04`. -/
  | ctrlDataComplete (data : List Byte)
  /-- DATA_IN_COMPLETE, kind `0x05`. -/
  | dataInComplete (ep : Byte)
  /-- DATA_OUT_COMPLETE, kind `0x06`. -/
  | dataOutComplete (ep : Byte) (data : List Byte)
  /-- UART_RX_BYTE, kind `0x07`. -/
  | uartRxByte (c : Port) (b : Byte)
  /-- UART_TX_BYTE, kind `0x08`. -/
  | uartTxByte (c : Port)
  /-- UART_TX_COMPLETE, kind `0x09`. -/
  | uartTxComplete (c : Port)
  /-- UART_ERROR, kind `0x0A`; `kind` is the code of R110. -/
  | uartError (c : Port) (kind : Byte)
  /-- TIMER_TICK, kind `0x0B`. -/
  | timerTick
  /-- SCHED_RUN, kind `0x0C`. -/
  | schedRun
  /-- PATH_CLASS_NODATA, P1: type class, `wLength = 0`. -/
  | pathClassNodata (dir : Dir) (recipient : BitVec 5) (bRequest : Byte) (wValue wIndex : Half)
  /-- PATH_CLASS_IN, P2: type class, device-to-host, `wLength != 0`. -/
  | pathClassIn (recipient : BitVec 5) (bRequest : Byte) (wValue wIndex wLength : Half)
  /-- PATH_CLASS_OUT, P3: type class, host-to-device, `wLength != 0`. -/
  | pathClassOut (recipient : BitVec 5) (bRequest : Byte) (wValue wIndex wLength : Half)
  /-- PATH_STD_GET_INTERFACE, P4: type standard, `bRequest = 0x0A`. -/
  | pathStdGetInterface (dir : Dir) (recipient : BitVec 5) (wValue wIndex wLength : Half)
  /-- PATH_OTHER, P5: every other packet. -/
  | pathOther (pkt : SetupPacket)
  /-- SEND_ENCAPSULATED_COMMAND, `bRequest = 0x00`. -/
  | sendEncapsulatedCommand (r : ClassRequest)
  /-- GET_ENCAPSULATED_RESPONSE, `bRequest = 0x01`. -/
  | getEncapsulatedResponse (r : ClassRequest)
  /-- SET_COMM_FEATURE, `bRequest = 0x02`. -/
  | setCommFeature (r : ClassRequest)
  /-- GET_COMM_FEATURE, `bRequest = 0x03`. -/
  | getCommFeature (r : ClassRequest)
  /-- CLEAR_COMM_FEATURE, `bRequest = 0x04`. -/
  | clearCommFeature (r : ClassRequest)
  /-- SET_LINE_CODING, `bRequest = 0x20`. -/
  | setLineCoding (r : ClassRequest)
  /-- GET_LINE_CODING, `bRequest = 0x21`. -/
  | getLineCoding (r : ClassRequest)
  /-- SET_CONTROL_LINE_STATE, `bRequest = 0x22`. -/
  | setControlLineState (r : ClassRequest)
  /-- SEND_BREAK, `bRequest = 0x23`. -/
  | sendBreak (r : ClassRequest)
  /-- CLASS_UNKNOWN: type class, any other `bRequest`. -/
  | classUnknown (bRequest : Byte) (r : ClassRequest)
deriving DecidableEq, Repr

/-- The table's format column. -/
inductive Format where
  | event
  | setupPath
  | setupClass
deriving DecidableEq, Repr

/-- One event as it is delivered at the block's boundary: its bytes, kind code first (R90 to R93; for the
two SETUP formats the 8 bytes of the packet), and the format by which the table's rows read them. The
record's length is the length of its payload (R103). -/
structure Record where
  format : Format
  bytes : List Byte
deriving DecidableEq, Repr

end Sys2Proof
end

