-- ==== Sys2Proof/WellFormed.lean ====
section
/-! DEFINITION. Which instructions the encoding admits: the conditions of spec/30_encoding.md R93, R100
and R101 that the types of the operands do not already carry. -/

namespace Sys2Proof

/-- The nine recognised class request codes (R101). -/
def knownClassOpcodes : List Byte := [0x00, 0x01, 0x02, 0x03, 0x04, 0x20, 0x21, 0x22, 0x23]

/-- The largest `MAX_PACKET` (R6). -/
def largestPacket : Nat := 512

/-- The largest `wLength`, a u16 (R98). -/
def largestWLength : Nat := 65535

/-- A well-formed instruction: one that some record encodes.
The data stage of a control transfer carries `wLength` bytes, 1 to 65535 (R93, R127); an OUT packet at
most `MAX_PACKET`, which is at most 512 (R93, R6); P2 and P3 need `wLength != 0` and P5 is what P1 to P4
leave (R100); CLASS_UNKNOWN is what the nine named requests leave (R101). -/
def Instr.wf : Instr → Bool
  | .reset => true
  | .configure => true
  | .deconfigure => true
  | .setup _ => true
  | .ctrlDataComplete data => decide (1 ≤ data.length) && decide (data.length ≤ largestWLength)
  | .dataInComplete _ => true
  | .dataOutComplete _ data => decide (data.length ≤ largestPacket)
  | .uartRxByte _ _ => true
  | .uartTxByte _ => true
  | .uartTxComplete _ => true
  | .uartError _ _ => true
  | .timerTick => true
  | .schedRun => true
  | .pathClassNodata _ _ _ _ _ => true
  | .pathClassIn _ _ _ _ wLength => decide (wLength ≠ 0)
  | .pathClassOut _ _ _ _ wLength => decide (wLength ≠ 0)
  | .pathStdGetInterface _ _ _ _ _ => true
  | .pathOther pkt =>
    decide (pkt.reqType ≠ .classType) && decide (¬(pkt.reqType = .standard ∧ pkt.bRequest = 0x0A))
  | .sendEncapsulatedCommand _ => true
  | .getEncapsulatedResponse _ => true
  | .setCommFeature _ => true
  | .getCommFeature _ => true
  | .clearCommFeature _ => true
  | .setLineCoding _ => true
  | .getLineCoding _ => true
  | .setControlLineState _ => true
  | .sendBreak _ => true
  | .classUnknown bRequest _ => decide (bRequest ∉ knownClassOpcodes)

end Sys2Proof
end

