-- ==== Sys2Proof/Decode.lean ====
section
/-! DEFINITION. The decoder of delivered events, total on any bytes and rejecting by name, then the
encoder, both written from spec/30_encoding.md R92, R93, R98 to R101, and the rows of the opcode table
over the 64-bit setup word. -/

namespace Sys2Proof

/-- Why a record is no instruction (R102 (g): "a trace containing one is malformed and the model refuses
it"). -/
inductive DecodeError where
  /-- The record holds no bytes. -/
  | emptyRecord
  /-- A kind code `0x0D` to `0xFF` (R91). -/
  | unknownKind (code : Byte)
  /-- The payload has not the shape of R93 for its kind. -/
  | badPayload
  /-- A channel byte that is neither 0 nor 1 (R93). -/
  | badChannel (c : Byte)
  /-- A setup packet of other than 8 bytes (R103). -/
  | badPacketLength
  /-- A SETUP_CLASS record whose packet is not of type class (R101). -/
  | notClass
deriving DecidableEq, Repr

/-! ### Byte order -/

/-- `le16(b0,b1) = b0 + 256*b1` (R8). -/
def le16 (b0 b1 : Byte) : Half := b1 ++ b0

/-- `le32(b0,b1,b2,b3)` (R8). -/
def le32 (b0 b1 b2 b3 : Byte) : BitVec 32 := b3 ++ (b2 ++ (b1 ++ b0))

/-- The byte `v[8k+7 : 8k]`. -/
def byteOf {w : Nat} (v : BitVec w) (k : Nat) : Byte := v.extractLsb' (8 * k) 8

/-! ### The setup packet (R98, R99) -/

/-- `dir`: 0 host-to-device, 1 device-to-host (R99). -/
def dirOfBit (b : Bool) : Dir := if b then .deviceToHost else .hostToDevice

/-- The bit of a `dir` (R99). -/
def Dir.bit : Dir → BitVec 1
  | .hostToDevice => 0
  | .deviceToHost => 1

/-- `type`: 0 standard, 1 class, 2 vendor, 3 reserved (R99). -/
def reqTypeOfBits (b : BitVec 2) : ReqType :=
  if b = 0 then .standard else if b = 1 then .classType else if b = 2 then .vendor else .reserved

/-- The two bits of a `type` (R99). -/
def ReqType.bits : ReqType → BitVec 2
  | .standard => 0
  | .classType => 1
  | .vendor => 2
  | .reserved => 3

/-- The packet in the 8 bytes `pkt[0]` to `pkt[7]` (R98, R99). -/
def packetOfBytes (b0 b1 b2 b3 b4 b5 b6 b7 : Byte) : SetupPacket where
  dir := dirOfBit (b0.getLsbD 7)
  reqType := reqTypeOfBits (b0.extractLsb' 5 2)
  recipient := b0.extractLsb' 0 5
  bRequest := b1
  wValue := le16 b2 b3
  wIndex := le16 b4 b5
  wLength := le16 b6 b7

/-- `pkt[0]`, `bmRequestType` (R99). -/
def SetupPacket.bmRequestType (p : SetupPacket) : Byte := p.dir.bit ++ (p.reqType.bits ++ p.recipient)

/-- The 8 bytes of a packet, byte 0 first (R98). -/
def SetupPacket.bytes (p : SetupPacket) : List Byte :=
  [p.bmRequestType, p.bRequest, byteOf p.wValue 0, byteOf p.wValue 1, byteOf p.wIndex 0, byteOf p.wIndex 1,
    byteOf p.wLength 0, byteOf p.wLength 1]

/-- The packet that a list of 8 bytes is. -/
def packetOfList : List Byte → Option SetupPacket
  | [b0, b1, b2, b3, b4, b5, b6, b7] => some (packetOfBytes b0 b1 b2 b3 b4 b5 b6 b7)
  | _ => none

/-- `W = sum over k of pkt[k] * 2^(8k)` (R98). -/
def wordOfBytes : List Byte → Nat
  | [] => 0
  | b :: rest => b.toNat + 256 * wordOfBytes rest

/-- The 64-bit setup word of a packet (R98). -/
def SetupPacket.word (p : SetupPacket) : Nat := wordOfBytes p.bytes

/-- The packet with a class request's fields and request code. -/
def ClassRequest.packet (r : ClassRequest) (bRequest : Byte) : SetupPacket where
  dir := r.dir
  reqType := .classType
  recipient := r.recipient
  bRequest := bRequest
  wValue := r.wValue
  wIndex := r.wIndex
  wLength := r.wLength

/-- A packet's fields beside its type and request code. -/
def SetupPacket.classRequest (p : SetupPacket) : ClassRequest where
  dir := p.dir
  recipient := p.recipient
  wValue := p.wValue
  wIndex := p.wIndex
  wLength := p.wLength

/-! ### Decoding -/

/-- A channel byte, 0 or 1 (R93). -/
def decodeChannel (c : Byte) : Except DecodeError Port :=
  if c = 0 then .ok .p0 else if c = 1 then .ok .p1 else .error (.badChannel c)

/-- The instruction of a channel byte. -/
def withChannel (c : Byte) (f : Port → Instr) : Except DecodeError Instr :=
  match decodeChannel c with
  | .ok p => .ok (f p)
  | .error e => .error e

/-- An instruction, if it is well formed; a payload outside the shape of R93 is rejected. -/
def accept (i : Instr) : Except DecodeError Instr :=
  if i.wf then .ok i else .error .badPayload

/-- A kind without payload (R93). -/
def noPayload (i : Instr) : List Byte → Except DecodeError Instr
  | [] => .ok i
  | _ => .error .badPayload

/-- A kind whose payload is one byte (R93). -/
def onePayload (f : Byte → Except DecodeError Instr) : List Byte → Except DecodeError Instr
  | [b] => f b
  | _ => .error .badPayload

/-- A kind whose payload is two bytes (R93). -/
def twoPayload (f : Byte → Byte → Except DecodeError Instr) : List Byte → Except DecodeError Instr
  | [a, b] => f a b
  | _ => .error .badPayload

/-- SETUP: the payload is the packet (R93, R103). -/
def setupPayload (payload : List Byte) : Except DecodeError Instr :=
  match packetOfList payload with
  | some p => .ok (.setup p)
  | none => .error .badPacketLength

/-- DATA_OUT_COMPLETE: the endpoint, then the packet (R93). -/
def outPayload : List Byte → Except DecodeError Instr
  | ep :: data => accept (.dataOutComplete ep data)
  | [] => .error .badPayload

/-- The payload of a kind code (R92, R93). -/
def decodeKind (kind : Byte) (payload : List Byte) : Except DecodeError Instr :=
  match kind.toNat with
  | 0x00 => noPayload .reset payload
  | 0x01 => noPayload .configure payload
  | 0x02 => noPayload .deconfigure payload
  | 0x03 => setupPayload payload
  | 0x04 => accept (.ctrlDataComplete payload)
  | 0x05 => onePayload (fun ep => .ok (.dataInComplete ep)) payload
  | 0x06 => outPayload payload
  | 0x07 => twoPayload (fun c b => withChannel c (.uartRxByte · b)) payload
  | 0x08 => onePayload (fun c => withChannel c .uartTxByte) payload
  | 0x09 => onePayload (fun c => withChannel c .uartTxComplete) payload
  | 0x0A => twoPayload (fun c errKind => withChannel c (.uartError · errKind)) payload
  | 0x0B => noPayload .timerTick payload
  | 0x0C => noPayload .schedRun payload
  | _ => .error (.unknownKind kind)

/-- The EVENT rows: the kind code, then its payload (R92, R93). -/
def decodeEvent : List Byte → Except DecodeError Instr
  | [] => .error .emptyRecord
  | kind :: payload => decodeKind kind payload

/-- The SETUP_PATH rows: first match of P1 to P5 (R100). -/
def decodePath (p : SetupPacket) : Instr :=
  if p.reqType = .classType then
    if p.wLength = 0 then .pathClassNodata p.dir p.recipient p.bRequest p.wValue p.wIndex
    else
      match p.dir with
      | .deviceToHost => .pathClassIn p.recipient p.bRequest p.wValue p.wIndex p.wLength
      | .hostToDevice => .pathClassOut p.recipient p.bRequest p.wValue p.wIndex p.wLength
  else if p.reqType = .standard ∧ p.bRequest = 0x0A then
    .pathStdGetInterface p.dir p.recipient p.wValue p.wIndex p.wLength
  else .pathOther p

/-- The SETUP_CLASS rows: the class request by its request code (R101). -/
def decodeClass (p : SetupPacket) : Except DecodeError Instr :=
  if p.reqType = .classType then
    .ok (match p.bRequest.toNat with
      | 0x00 => .sendEncapsulatedCommand p.classRequest
      | 0x01 => .getEncapsulatedResponse p.classRequest
      | 0x02 => .setCommFeature p.classRequest
      | 0x03 => .getCommFeature p.classRequest
      | 0x04 => .clearCommFeature p.classRequest
      | 0x20 => .setLineCoding p.classRequest
      | 0x21 => .getLineCoding p.classRequest
      | 0x22 => .setControlLineState p.classRequest
      | 0x23 => .sendBreak p.classRequest
      | _ => .classUnknown p.bRequest p.classRequest)
  else .error .notClass

/-- The decoder. -/
def decode (r : Record) : Except DecodeError Instr :=
  match r.format with
  | .event => decodeEvent r.bytes
  | .setupPath =>
    match packetOfList r.bytes with
    | some p => .ok (decodePath p)
    | none => .error .badPacketLength
  | .setupClass =>
    match packetOfList r.bytes with
    | some p => decodeClass p
    | none => .error .badPacketLength

/-! ### Encoding -/

/-- The byte of a channel (R93). -/
def encodeChannel : Port → Byte
  | .p0 => 0
  | .p1 => 1

/-- An EVENT record. -/
def eventRecord (bytes : List Byte) : Record := { format := .event, bytes := bytes }

/-- A SETUP_PATH record. -/
def pathRecord (p : SetupPacket) : Record := { format := .setupPath, bytes := p.bytes }

/-- A SETUP_CLASS record. -/
def classRecord (bRequest : Byte) (r : ClassRequest) : Record :=
  { format := .setupClass, bytes := (r.packet bRequest).bytes }

/-- The record of an instruction (R92, R93, R98 to R101). -/
def encode : Instr → Record
  | .reset => eventRecord [0x00]
  | .configure => eventRecord [0x01]
  | .deconfigure => eventRecord [0x02]
  | .setup pkt => eventRecord (0x03 :: pkt.bytes)
  | .ctrlDataComplete data => eventRecord (0x04 :: data)
  | .dataInComplete ep => eventRecord [0x05, ep]
  | .dataOutComplete ep data => eventRecord (0x06 :: ep :: data)
  | .uartRxByte c b => eventRecord [0x07, encodeChannel c, b]
  | .uartTxByte c => eventRecord [0x08, encodeChannel c]
  | .uartTxComplete c => eventRecord [0x09, encodeChannel c]
  | .uartError c kind => eventRecord [0x0A, encodeChannel c, kind]
  | .timerTick => eventRecord [0x0B]
  | .schedRun => eventRecord [0x0C]
  | .pathClassNodata dir recipient bRequest wValue wIndex =>
    pathRecord ⟨dir, .classType, recipient, bRequest, wValue, wIndex, 0⟩
  | .pathClassIn recipient bRequest wValue wIndex wLength =>
    pathRecord ⟨.deviceToHost, .classType, recipient, bRequest, wValue, wIndex, wLength⟩
  | .pathClassOut recipient bRequest wValue wIndex wLength =>
    pathRecord ⟨.hostToDevice, .classType, recipient, bRequest, wValue, wIndex, wLength⟩
  | .pathStdGetInterface dir recipient wValue wIndex wLength =>
    pathRecord ⟨dir, .standard, recipient, 0x0A, wValue, wIndex, wLength⟩
  | .pathOther pkt => pathRecord pkt
  | .sendEncapsulatedCommand r => classRecord 0x00 r
  | .getEncapsulatedResponse r => classRecord 0x01 r
  | .setCommFeature r => classRecord 0x02 r
  | .getCommFeature r => classRecord 0x03 r
  | .clearCommFeature r => classRecord 0x04 r
  | .setLineCoding r => classRecord 0x20 r
  | .getLineCoding r => classRecord 0x21 r
  | .setControlLineState r => classRecord 0x22 r
  | .sendBreak r => classRecord 0x23 r
  | .classUnknown bRequest r => classRecord bRequest r

/-! ### The opcode table's rows by mask and match -/

/-- A row of spec/opcode_table.json: a word matches it where `word &&& mask = pattern`. -/
structure TableRow where
  mnemonic : String
  format : Format
  pattern : Nat
  mask : Nat
deriving DecidableEq, Repr

/-- Whether a word has a row's fixed bits. -/
def TableRow.hits (row : TableRow) (w : Nat) : Bool := Nat.land w row.mask == row.pattern

/-- The SETUP_PATH rows in the table's order (R100: "First match wins, top to bottom"). -/
def pathRows : List TableRow := [
  ⟨"PATH_CLASS_NODATA", .setupPath, 0x0000000000000020, 0xFFFF000000000060⟩,
  ⟨"PATH_CLASS_IN", .setupPath, 0x00000000000000A0, 0x00000000000000E0⟩,
  ⟨"PATH_CLASS_OUT", .setupPath, 0x0000000000000020, 0x00000000000000E0⟩,
  ⟨"PATH_STD_GET_INTERFACE", .setupPath, 0x0000000000000A00, 0x000000000000FF60⟩,
  ⟨"PATH_OTHER", .setupPath, 0x0000000000000000, 0x0000000000000000⟩]

/-- The SETUP_CLASS rows in the table's order, the default row last (R101). -/
def classRows : List TableRow := [
  ⟨"SEND_ENCAPSULATED_COMMAND", .setupClass, 0x0000000000000020, 0x000000000000FF60⟩,
  ⟨"GET_ENCAPSULATED_RESPONSE", .setupClass, 0x0000000000000120, 0x000000000000FF60⟩,
  ⟨"SET_COMM_FEATURE", .setupClass, 0x0000000000000220, 0x000000000000FF60⟩,
  ⟨"GET_COMM_FEATURE", .setupClass, 0x0000000000000320, 0x000000000000FF60⟩,
  ⟨"CLEAR_COMM_FEATURE", .setupClass, 0x0000000000000420, 0x000000000000FF60⟩,
  ⟨"SET_LINE_CODING", .setupClass, 0x0000000000002020, 0x000000000000FF60⟩,
  ⟨"GET_LINE_CODING", .setupClass, 0x0000000000002120, 0x000000000000FF60⟩,
  ⟨"SET_CONTROL_LINE_STATE", .setupClass, 0x0000000000002220, 0x000000000000FF60⟩,
  ⟨"SEND_BREAK", .setupClass, 0x0000000000002320, 0x000000000000FF60⟩,
  ⟨"CLASS_UNKNOWN", .setupClass, 0x0000000000000020, 0x0000000000000060⟩]

/-- The EVENT rows (R92): the kind byte is the whole word. -/
def eventRows : List TableRow := [
  ⟨"RESET", .event, 0x00, 0xFF⟩, ⟨"CONFIGURE", .event, 0x01, 0xFF⟩, ⟨"DECONFIGURE", .event, 0x02, 0xFF⟩,
  ⟨"SETUP", .event, 0x03, 0xFF⟩, ⟨"CTRL_DATA_COMPLETE", .event, 0x04, 0xFF⟩,
  ⟨"DATA_IN_COMPLETE", .event, 0x05, 0xFF⟩, ⟨"DATA_OUT_COMPLETE", .event, 0x06, 0xFF⟩,
  ⟨"UART_RX_BYTE", .event, 0x07, 0xFF⟩, ⟨"UART_TX_BYTE", .event, 0x08, 0xFF⟩,
  ⟨"UART_TX_COMPLETE", .event, 0x09, 0xFF⟩, ⟨"UART_ERROR", .event, 0x0A, 0xFF⟩,
  ⟨"TIMER_TICK", .event, 0x0B, 0xFF⟩, ⟨"SCHED_RUN", .event, 0x0C, 0xFF⟩]

/-- The mnemonic of the first row of a format that a word matches. -/
def firstRow (rows : List TableRow) (w : Nat) : Option String :=
  match rows with
  | [] => none
  | row :: rest => if row.hits w then some row.mnemonic else firstRow rest w

/-- The mnemonic of an instruction's row. -/
def Instr.mnemonic : Instr → String
  | .reset => "RESET"
  | .configure => "CONFIGURE"
  | .deconfigure => "DECONFIGURE"
  | .setup _ => "SETUP"
  | .ctrlDataComplete _ => "CTRL_DATA_COMPLETE"
  | .dataInComplete _ => "DATA_IN_COMPLETE"
  | .dataOutComplete _ _ => "DATA_OUT_COMPLETE"
  | .uartRxByte _ _ => "UART_RX_BYTE"
  | .uartTxByte _ => "UART_TX_BYTE"
  | .uartTxComplete _ => "UART_TX_COMPLETE"
  | .uartError _ _ => "UART_ERROR"
  | .timerTick => "TIMER_TICK"
  | .schedRun => "SCHED_RUN"
  | .pathClassNodata _ _ _ _ _ => "PATH_CLASS_NODATA"
  | .pathClassIn _ _ _ _ _ => "PATH_CLASS_IN"
  | .pathClassOut _ _ _ _ _ => "PATH_CLASS_OUT"
  | .pathStdGetInterface _ _ _ _ _ => "PATH_STD_GET_INTERFACE"
  | .pathOther _ => "PATH_OTHER"
  | .sendEncapsulatedCommand _ => "SEND_ENCAPSULATED_COMMAND"
  | .getEncapsulatedResponse _ => "GET_ENCAPSULATED_RESPONSE"
  | .setCommFeature _ => "SET_COMM_FEATURE"
  | .getCommFeature _ => "GET_COMM_FEATURE"
  | .clearCommFeature _ => "CLEAR_COMM_FEATURE"
  | .setLineCoding _ => "SET_LINE_CODING"
  | .getLineCoding _ => "GET_LINE_CODING"
  | .setControlLineState _ => "SET_CONTROL_LINE_STATE"
  | .sendBreak _ => "SEND_BREAK"
  | .classUnknown _ _ => "CLASS_UNKNOWN"

/-! ### Words numbered as the table numbers them -/

/-- The `n` bytes of a word, the least significant first. -/
def bytesOfWord : Nat → Nat → List Byte
  | 0, _ => []
  | n + 1, w => BitVec.ofNat 8 w :: bytesOfWord n (w / 256)

/-- How many payload bytes follow a kind code, taken shortest where the payload's length varies (R93). -/
def shortestPayload : Nat → Nat
  | 0x03 => 8
  | 0x04 => 1
  | 0x05 => 1
  | 0x06 => 1
  | 0x07 => 2
  | 0x08 => 1
  | 0x09 => 1
  | 0x0A => 2
  | _ => 0

/-- The record of a table word: an EVENT row's word is the kind byte, followed by a payload of zeros; any
other word is the setup word `W` of R98, its upper bits zero, read by the SETUP_CLASS rows where its type
is class and by the SETUP_PATH rows elsewhere (DESIGN CHOICE, log entry 12). -/
def recordOfTableWord (nbits w : Nat) : Record :=
  let v := w % 2 ^ nbits
  if nbits ≤ 8 ∧ v ≤ 0x0C then eventRecord (bytesOfWord (1 + shortestPayload v) v)
  else if nbits ≤ 64 then
    if Nat.land v 0x60 = 0x20 then { format := .setupClass, bytes := bytesOfWord 8 v }
    else { format := .setupPath, bytes := bytesOfWord 8 v }
  else eventRecord (bytesOfWord ((nbits + 7) / 8) v)

/-- The instruction the decoder reads from a table word. -/
def decodeTableWord (nbits w : Nat) : Option Instr :=
  match decode (recordOfTableWord nbits w) with
  | .ok i => some i
  | .error _ => none

end Sys2Proof
end

