-- ==== Sys2Proof/Machine/State.lean ====
section
/-! DEFINITION. The state of the bridge (spec/10_state.md R20 to R39, one field for every item of R20's
table), the actions and errors of a step, the reasons a step can stop, and the state after reset (R47). -/

namespace Sys2Proof.Machine

/-! ### Register types -/

/-- `tx_state[p]` (R26). -/
inductive TxState where
  | idle
  | busy
deriving DecidableEq, Repr

/-- The contents of `pending_command[p]` when `pend_valid = 1` (R30). -/
structure PendingCommand where
  opcode : Byte
  length : Half
deriving DecidableEq, Repr

/-- The contents of `ctrl_rx_armed` when it is `Some(p, n)` (R31). -/
structure ArmedReceive where
  port : Port
  length : Nat
deriving DecidableEq, Repr

/-- The Port items of R20. -/
structure PortRegs where
  /-- `line_coding[p]` (R25). -/
  lineCoding : LineCoding
  /-- `tx_state[p]` (R26). -/
  txState : TxState
  /-- `tx_len[p]` (R27). -/
  txLen : Nat
  /-- `rx_length[p]` (R28). -/
  rxLength : Nat
  /-- `out_armed[p]` (R29). -/
  outArmed : Bool
  /-- `pending_command[p]` (R30). -/
  pendingCommand : Option PendingCommand
deriving DecidableEq, Repr

/-- The Channel items of R20. -/
structure ChanRegs where
  /-- `rx_remaining[c]` (R33). -/
  rxRemaining : Nat
  /-- `rx_read_cursor[c]` (R34). -/
  rxReadCursor : Nat
  /-- `dma_running[c]` (R35). -/
  dmaRunning : Bool
  /-- `uart_cfg[c]` (R36). -/
  uartCfg : UartCfg
  /-- `uart_tx_busy[c]` (R37). -/
  uartTxBusy : Bool
  /-- `uart_tx_len[c]` (R37). -/
  uartTxLen : Nat
  /-- `uart_tx_pos[c]` (R37). -/
  uartTxPos : Nat
  /-- `uart_err_overrun[c]` (R38). -/
  errOverrun : Bool
  /-- `uart_err_framing[c]` (R38). -/
  errFraming : Bool
deriving DecidableEq, Repr

/-- The contents of one buffer: the bytes written since the last RESET, by strictly rising index. An
index that is not listed was never written (log entry 3). -/
abbrev Memory := List Host.Cell

/-- The buffers of one port and its channel (R32, R39). -/
structure Buffers where
  /-- `rx_ring[c]` (R32). -/
  rxRing : Memory
  /-- `tx_buf[p]` (R39 (a)). -/
  txBuf : Memory
  /-- `rx_buf[p]` (R39 (b)). -/
  rxBuf : Memory
  /-- `ctrl_buf[p]` (R39 (c)). -/
  ctrlBuf : Memory
deriving DecidableEq, Repr

/-! ### Errors and actions -/

/-- The error codes of R250. -/
inductive ErrorCode where
  | busy
  | allocationFailure
  | unroutableRequest
  | peripheralInitFailure
  | uartOverrun
  | uartFraming
deriving DecidableEq, Repr

/-- The number R250 assigns to an error (D36). -/
def ErrorCode.number : ErrorCode → Nat
  | .busy => 1
  | .allocationFailure => 2
  | .unroutableRequest => 3
  | .peripheralInitFailure => 4
  | .uartOverrun => 5
  | .uartFraming => 6

/-- An error as it is raised, with the value R250 says is recorded. -/
inductive RaisedError where
  | busy (p : Port)
  | allocationFailure
  | unroutableRequest (iface : Byte)
  | peripheralInitFailure (c : Port)
  | uartOverrun (c : Port)
  | uartFraming (c : Port)
deriving DecidableEq, Repr

/-- The code of a raised error. -/
def RaisedError.code : RaisedError → ErrorCode
  | .busy _ => .busy
  | .allocationFailure => .allocationFailure
  | .unroutableRequest _ => .unroutableRequest
  | .peripheralInitFailure _ => .peripheralInitFailure
  | .uartOverrun _ => .uartOverrun
  | .uartFraming _ => .uartFraming

/-- `type` of `OpenEndpoint` (R94). -/
inductive EndpointType where
  | bulk
  | interrupt
deriving DecidableEq, Repr

/-- The actions of R94. -/
inductive Action where
  | openEndpoint (ep : Byte) (type : EndpointType) (mps : Nat)
  | closeEndpoint (ep : Byte)
  | armReceive (ep : Byte)
  | usbTransmit (ep : Byte) (s : List Byte)
  | ctrlSend (s : List Byte)
  | ctrlReceive (p : Port) (n : Nat)
  | uartInit (c : Port) (cfg : UartCfg)
  | uartDeinit (c : Port)
  | dmaStart (c : Port)
  | uartTxStart (c : Port) (n : Nat)
  | lineByte (c : Port) (b : Byte) (cfg : UartCfg)
  | configResult (ok : Bool)
  | diag (code : ErrorCode) (info : Byte)
  | fatal (code : ErrorCode)
deriving DecidableEq, Repr

/-! ### Inputs -/

/-- The draws of R93: the answers the collaborators give in one step. A step asks for each of them at most
once (R221, R227, R134). -/
structure Draws where
  allocOk : Bool
  initOk : Two Bool
  deinitOk : Two Bool
deriving DecidableEq, Repr

/-- An event delivered at the block's boundary and not yet taken, with the answers its step will draw. -/
structure Delivery where
  record : Record
  draws : Draws
deriving DecidableEq, Repr

/-! ### Why a step stops -/

/-- The model's faults. No state of `Invariant` (spec R46) reaches one: they stand for the accesses of which
R61 says that "no step can address outside a buffer". -/
inductive Fault where
  /-- An index at or past a buffer's capacity (R8 MemRead, MemWrite: "requires `i + n <= capacity(buf)`").
  Raised by every buffer access. Safe: the machine stops where the spec gives no effect. -/
  | bufferRange (b : Buffer) (p : Port)
  /-- `rx_remaining[c]` outside 1..RING_CAP or `rx_read_cursor[c]` outside 0..RING_CAP-1 (R33, R34).
  Raised by DmaStore and Drain. Safe: as above. -/
  | ringRange (c : Port)
deriving DecidableEq, Repr

/-- Inputs outside the model: events that are not enabled in a state (R90: "only enabled events can step")
and those the spec says to refuse. Safe, all of them: the model does not go on where the spec gives the
block nothing to do. -/
inductive Refusal where
  /-- An instruction that has no meaning yet; raised by `exec`'s refused arms only. -/
  | notModelled (mnemonic : String)
  /-- A record that names no instruction (R102 (g), U14); raised by the fetch. -/
  | undecodable (reason : DecodeError)
  /-- `fatal = 1` and the event is not RESET (R49, R257); raised by every instruction but RESET. -/
  | halted
  /-- A class request with `0 < wLength` and `wLength > CTRL_BUF_CAP` (U5); raised by the SETUP
  instructions. -/
  | classRequestTooLong
  /-- CTRL_DATA_COMPLETE with `ctrl_rx_armed = None` (R127). -/
  | ctrlDataNotArmed
  /-- CTRL_DATA_COMPLETE with other than the armed number of bytes (R127, U7). -/
  | ctrlDataLength
  /-- DATA_OUT_COMPLETE while unconfigured or for an endpoint that is no `EP_OUT[p]` (R162, U8). -/
  | outNoEndpoint
  /-- DATA_OUT_COMPLETE on an endpoint that is not armed (R162, U8). -/
  | outNotArmed
  /-- DATA_OUT_COMPLETE with more than MAX_PACKET bytes (R162, U8). -/
  | outTooLong
  /-- UART_TX_BYTE or UART_TX_COMPLETE with `uart_tx_busy[c] = 0` (R165, R166). -/
  | lineNotSending
  /-- UART_TX_BYTE with every byte sent (R165). -/
  | lineAllSent
  /-- UART_TX_COMPLETE with bytes left to send (R166). -/
  | lineBytesLeft
  /-- SCHED_RUN with `tick_flag = 0` (R194). -/
  | noTick
  /-- UART_ERROR with a kind other than overrun and framing (R102 (g), U14). -/
  | unknownErrorKind
deriving DecidableEq, Repr

/-! ### The state -/

/-- The complete state (R20), and after it the model's own fields (log entries 2 to 7). -/
structure State where
  /-- `configured` (R21). -/
  configured : Bool
  /-- `fatal` (R22). -/
  fatal : Bool
  /-- `tick_flag` (R23). -/
  tickFlag : Bool
  /-- `ctrl_rx_armed` (R31). -/
  ctrlRxArmed : Option ArmedReceive
  /-- The Port items. -/
  ports : Two PortRegs
  /-- The Channel items. -/
  chans : Two ChanRegs
  /-- The buffers. -/
  bufs : Two Buffers
  /-- MODEL: the open parameters (R6), changed by no step. -/
  params : Params
  /-- MODEL: how many RESET steps there were. -/
  resets : Nat
  /-- MODEL: the events delivered and not yet taken, oldest first. -/
  inbox : List Delivery
  /-- MODEL: the answers the step at hand draws. -/
  draws : Draws
  /-- MODEL: every action emitted so far, in order (R11, R94). -/
  out : List Action
  /-- MODEL: every error raised so far, in order (R251: "a ghost trace"). -/
  raised : List RaisedError
deriving DecidableEq, Repr

/-! ### Reset values (R47) -/

/-- The reset values of the Port items, which are the creation values of R225 too. -/
def PortRegs.initial : PortRegs where
  lineCoding := Config.lcDefault
  txState := .idle
  txLen := 0
  rxLength := 0
  outArmed := false
  pendingCommand := none

/-- The reset values of the Channel items. -/
def ChanRegs.initial (ringCap : Nat) : ChanRegs where
  rxRemaining := ringCap
  rxReadCursor := 0
  dmaRunning := false
  uartCfg := Config.uartCfgDefault
  uartTxBusy := false
  uartTxLen := 0
  uartTxPos := 0
  errOverrun := false
  errFraming := false

/-- Buffers in which nothing has been written. -/
def Buffers.unwritten : Buffers where
  rxRing := []
  txBuf := []
  rxBuf := []
  ctrlBuf := []

/-- Every collaborator answers yes. -/
def Draws.allOk : Draws where
  allocOk := true
  initOk := Two.both true
  deinitOk := Two.both true

/-- The machine right after reset (R47), with the reference parameters (log entry 2), no event delivered,
nothing emitted and nothing raised. -/
def State.reset : State where
  configured := false
  fatal := false
  tickFlag := false
  ctrlRxArmed := none
  ports := Two.both PortRegs.initial
  chans := Two.both (ChanRegs.initial Config.reference.ringCap)
  bufs := Two.both Buffers.unwritten
  params := Config.reference
  resets := 0
  inbox := []
  draws := Draws.allOk
  out := []
  raised := []

end Sys2Proof.Machine
end

