-- ==== Sys2Proof/Machine/Memory.lean ====
section
/-! DEFINITION. Buffers as lists of written bytes (spec/20_memory.md R60): reading and writing a byte,
writing a run of bytes, and the canonical form. -/

namespace Sys2Proof.Machine

/-- What a buffer lists at an index; an index it does not list was never written. This is the one
definition of what an unlisted index reads as: no value (log entry 3). -/
def Memory.read? : Memory → Nat → Option Byte
  | [], _ => none
  | (a, v) :: rest, i => if i = a then some v else Memory.read? rest i

/-- `B[i] <- v`. -/
def Memory.write : Memory → Nat → Byte → Memory
  | [], i, v => [(i, v)]
  | (a, w) :: rest, i, v =>
    if i < a then (i, v) :: (a, w) :: rest
    else if i = a then (i, v) :: rest
    else (a, w) :: Memory.write rest i v

/-- `B[i..i+len(vs)) <- vs` (R7). -/
def Memory.writeBytes : Memory → Nat → List Byte → Memory
  | m, _, [] => m
  | m, i, v :: vs => Memory.writeBytes (Memory.write m i v) (i + 1) vs

/-- The canonical form: indices strictly rising. (An unlisted index reads as no value and every entry
holds one, so no entry equals what an unlisted index reads as.) -/
abbrev Memory.wf (m : Memory) : Prop := m.Pairwise (fun x y => x.1 < y.1)

/-- Every written index lies below a capacity. -/
abbrev Memory.within (m : Memory) (capacity : Nat) : Prop := ∀ x ∈ m, x.1 < capacity

/-- The buffer of a kind. -/
def Buffers.get (b : Buffers) : Buffer → Memory
  | .rxRing => b.rxRing
  | .txBuf => b.txBuf
  | .rxBuf => b.rxBuf
  | .ctrlBuf => b.ctrlBuf

/-- The buffers with one kind replaced. -/
def Buffers.put (b : Buffers) (k : Buffer) (m : Memory) : Buffers :=
  match k with
  | .rxRing => { b with rxRing := m }
  | .txBuf => { b with txBuf := m }
  | .rxBuf => { b with rxBuf := m }
  | .ctrlBuf => { b with ctrlBuf := m }

/-- A buffer of the state. -/
def State.mem (s : State) (b : Buffer) (p : Port) : Memory := (s.bufs.get p).get b

/-- The state with a run of bytes written to a buffer, in range or not. -/
def State.store (s : State) (b : Buffer) (p : Port) (i : Nat) (vs : List Byte) : State :=
  { s with bufs := s.bufs.modify p (fun x => x.put b ((x.get b).writeBytes i vs)) }

/-- The byte at an index of a buffer: the one written there, else the free value of U3. -/
def State.byteAt (s : State) (b : Buffer) (p : Port) (i : Nat) : Byte :=
  match (s.mem b p).read? i with
  | some v => v
  | none => Config.unwrittenByte s.resets b p i

/-- `B[i..i+n)` (R7). -/
def State.bytesAt (s : State) (b : Buffer) (p : Port) (i n : Nat) : List Byte :=
  (List.range n).map (fun k => s.byteAt b p (i + k))

end Sys2Proof.Machine
end

