-- ==== Sys2Proof/Machine/Flags.lean ====
section
/-! DEFINITION. The one-bit items and the small registers, each with the operation that writes it
(spec/10_state.md R41: "The one-bit items and what sets and reads each"), and the derived states of the
control-request machine (R40) and of the OUT path (spec/41_bulk_data.md R170). There are no arithmetic
condition codes (R41). -/

namespace Sys2Proof.Machine

/-- The items of port `p`. -/
def State.port (s : State) (p : Port) : PortRegs := s.ports.get p

/-- The items of channel `c`. -/
def State.chan (s : State) (c : Port) : ChanRegs := s.chans.get c

/-- A write to the items of port `p`. -/
def State.modPort (s : State) (p : Port) (f : PortRegs → PortRegs) : State :=
  { s with ports := s.ports.modify p f }

/-- A write to the items of channel `c`. -/
def State.modChan (s : State) (c : Port) (f : ChanRegs → ChanRegs) : State :=
  { s with chans := s.chans.modify c f }

/-! ### Global items -/

/-- `configured <- b` (R21). -/
def setConfigured (b : Bool) (s : State) : State := { s with configured := b }

/-- `fatal <- 1` (R22). -/
def setFatal (s : State) : State := { s with fatal := true }

/-- `tick_flag <- b` (R23). -/
def setTick (b : Bool) (s : State) : State := { s with tickFlag := b }

/-- `ctrl_rx_armed <- a` (R31). -/
def setCtrlRxArmed (a : Option ArmedReceive) (s : State) : State := { s with ctrlRxArmed := a }

/-! ### Port items -/

/-- `line_coding[p] <- lc` (R25). -/
def setLineCodingReg (p : Port) (lc : LineCoding) (s : State) : State :=
  s.modPort p (fun r => { r with lineCoding := lc })

/-- `tx_state[p] <- Idle` (R26). -/
def setTxIdle (p : Port) (s : State) : State := s.modPort p (fun r => { r with txState := .idle })

/-- `tx_len[p] <- n; tx_state[p] <- Busy` (R26, R27). -/
def setTxBusy (p : Port) (n : Nat) (s : State) : State :=
  s.modPort p (fun r => { r with txLen := n, txState := .busy })

/-- `rx_length[p] <- n` (R28). -/
def setRxLength (p : Port) (n : Nat) (s : State) : State := s.modPort p (fun r => { r with rxLength := n })

/-- `out_armed[p] <- b` (R29). -/
def setOutArmed (p : Port) (b : Bool) (s : State) : State := s.modPort p (fun r => { r with outArmed := b })

/-- `pending_command[p] <- c` (R30). -/
def setPending (p : Port) (c : Option PendingCommand) (s : State) : State :=
  s.modPort p (fun r => { r with pendingCommand := c })

/-! ### Channel items -/

/-- `rx_remaining[c] <- n`, by the DMA engine (R33). -/
def setRxRemaining (c : Port) (n : Nat) (s : State) : State := s.modChan c (fun r => { r with rxRemaining := n })

/-- `rx_read_cursor[c] <- n` (R34). -/
def setReadCursor (c : Port) (n : Nat) (s : State) : State := s.modChan c (fun r => { r with rxReadCursor := n })

/-- `dma_running[c] <- 0` (R35). -/
def stopDma (c : Port) (s : State) : State := s.modChan c (fun r => { r with dmaRunning := false })

/-- The (re)arm of channel `c` (R35): "`rx_remaining[c] <- RING_CAP; rx_read_cursor[c] <- 0;
dma_running[c] <- 1`, leaving the contents of `rx_ring[c]` as they are". -/
def rearm (c : Port) (s : State) : State :=
  s.modChan c (fun r => { r with rxRemaining := s.params.ringCap, rxReadCursor := 0, dmaRunning := true })

/-- `uart_cfg[c] <- cfg` (R36). -/
def setUartCfg (c : Port) (cfg : UartCfg) (s : State) : State := s.modChan c (fun r => { r with uartCfg := cfg })

/-- `uart_tx_busy[c] <- b` (R37). -/
def setLineBusy (c : Port) (b : Bool) (s : State) : State := s.modChan c (fun r => { r with uartTxBusy := b })

/-- `uart_tx_len[c] <- n; uart_tx_pos[c] <- 0` (R37, R164). -/
def startLine (c : Port) (n : Nat) (s : State) : State :=
  s.modChan c (fun r => { r with uartTxLen := n, uartTxPos := 0 })

/-- `uart_tx_pos[c] <- n` (R37). -/
def setLinePos (c : Port) (n : Nat) (s : State) : State := s.modChan c (fun r => { r with uartTxPos := n })

/-- `uart_err_overrun[c] <- 1` (R38). -/
def flagOverrun (c : Port) (s : State) : State := s.modChan c (fun r => { r with errOverrun := true })

/-- `uart_err_framing[c] <- 1` (R38). -/
def flagFraming (c : Port) (s : State) : State := s.modChan c (fun r => { r with errFraming := true })

/-! ### Derived states -/

/-- `ctrl_state[p]` (R40, R140). -/
inductive CtrlState where
  | idle
  | awaitingData
deriving DecidableEq, Repr

/-- "`ctrl_state[p] = AwaitingData` if `pending_command[p]` is `Some`, else `Idle`" (R40). -/
def ctrlState (s : State) (p : Port) : CtrlState :=
  match (s.port p).pendingCommand with
  | some _ => .awaitingData
  | none => .idle

/-- The states of the OUT path (R170). -/
inductive OutPath where
  | armed
  | sending
  | parked
  /-- `(1,1)`, unreachable (R46 (I-b)). -/
  | both
deriving DecidableEq, Repr

/-- The state of port `p`'s OUT path, read off `(out_armed[p], uart_tx_busy[p])` (R170). -/
def outPath (s : State) (p : Port) : OutPath :=
  match (s.port p).outArmed, (s.chan p).uartTxBusy with
  | true, false => .armed
  | false, true => .sending
  | false, false => .parked
  | true, true => .both

end Sys2Proof.Machine
end

