-- ==== Sys2Proof/Machine/Operands.lean ====
section
/-! DEFINITION. The operand forms: what a setup packet is asked for (spec/30_encoding.md R106), the
line-coding payload (R104), the framing it selects (spec/40_control_requests.md R135), the error kinds
(R110), and routing by interface number and endpoint address (R122, R231). -/

namespace Sys2Proof.Machine

/-- `iface = pkt[4]`, the low byte of `wIndex`; the high byte is ignored (R106). -/
def ifaceOf (wIndex : Half) : Byte := byteOf wIndex 0

/-- `length = le16(pkt[6], pkt[7])`, zero-extended (R106). -/
def lengthOf (wLength : Half) : Nat := wLength.toNat

/-- The line coding in the bytes `LC[0..7)` (R104). -/
def lineCodingOfBytes (b0 b1 b2 b3 b4 b5 b6 : Byte) : LineCoding where
  baudRate := le32 b0 b1 b2 b3
  stopCode := b4
  parityCode := b5
  dataBits := b6

/-- The line coding in a list of bytes, of which the first seven count. -/
def lineCodingOfList : List Byte → LineCoding
  | b0 :: b1 :: b2 :: b3 :: b4 :: b5 :: b6 :: _ => lineCodingOfBytes b0 b1 b2 b3 b4 b5 b6
  | _ => Config.lcDefault

/-- The seven bytes of a line coding (R104, `bytes_le32` of R8). -/
def lineCodingBytes (lc : LineCoding) : List Byte :=
  [byteOf lc.baudRate 0, byteOf lc.baudRate 1, byteOf lc.baudRate 2, byteOf lc.baudRate 3,
    lc.stopCode, lc.parityCode, lc.dataBits]

/-- `stop` of `cfg_of` (R135). -/
def stopOfCode (code : Byte) : StopBits := if code = 2 then .two else .one

/-- `parity` of `cfg_of` (R135). -/
def parityOfCode (code : Byte) : Parity :=
  if code = 1 then .odd else if code = 2 then .even else .none

/-- `word_len` of `cfg_of` (R135). -/
def wordLenOfBits (bits : Byte) : WordLength :=
  if bits = 7 then .seven else if bits = 9 then .nine else .eight

/-- `cfg_of(LC)` (R135). -/
def cfgOf (lc : LineCoding) : UartCfg where
  baud := lc.baudRate
  wordLen := wordLenOfBits lc.dataBits
  stop := stopOfCode lc.stopCode
  parity := parityOfCode lc.parityCode

/-- The UART error kinds (R110). -/
inductive LineError where
  | overrun
  | framing
deriving DecidableEq, Repr

/-- `0x01` overrun, `0x02` framing; nothing else is an error kind (R110, R102 (g)). -/
def lineErrorOf (kind : Byte) : Option LineError :=
  if kind = 0x01 then some .overrun else if kind = 0x02 then some .framing else none

/-- The info byte of a diagnostic about a channel (R250: "channel c"). -/
def infoOfChannel (c : Port) : Byte := encodeChannel c

/-- The port whose entry of a parameter array is the given byte, port 0 first. -/
def portWith (xs : Two Byte) (b : Byte) : Option Port :=
  if b = xs.get .p0 then some .p0 else if b = xs.get .p1 then some .p1 else none

/-- The port a setup request's interface number selects (R122): none while unconfigured. -/
def routeIface (s : State) (iface : Byte) : Option Port :=
  if s.configured then portWith s.params.cmdIf iface else none

/-- The port that owns a bulk IN endpoint (R160, R231): none while unconfigured. -/
def routeIn (s : State) (ep : Byte) : Option Port :=
  if s.configured then portWith s.params.epIn ep else none

/-- The port that owns a bulk OUT endpoint (R162, R231): none while unconfigured. -/
def routeOut (s : State) (ep : Byte) : Option Port :=
  if s.configured then portWith s.params.epOut ep else none

/-- The derived write cursor, `RING_CAP - rx_remaining` (R33, R200 (a)). -/
def writeCursor (ringCap rxRemaining : Nat) : Nat := ringCap - rxRemaining

/-- `(w - r) mod RING_CAP` with the mathematical `mod` of R7 (R196, R200 (b)). -/
def bytesAvailable (ringCap w r : Nat) : Nat := (((w : Int) - (r : Int)) % (ringCap : Int)).toNat

end Sys2Proof.Machine
end

