-- ==== Sys2Proof/Machine/Ops.lean ====
section
/-! DEFINITION. The pseudocode primitives of spec/00_scope.md R8 (a procedure that goes on, ends the step or
stops; emit, raise, MemRead, MemWrite), the fatal halt and the return from it (spec/60_exceptions.md R257,
R258), the reconfiguration of a channel (R134), and the delivery and fetch of events. -/

namespace Sys2Proof.Machine

/-! ### Procedures -/

/-- Where a procedure of the pseudocode leaves its step (R8: "runs top to bottom"; "`return` ends the step
(or the named sub-procedure)"). -/
inductive Proc where
  /-- It returned, in this state; the caller goes on. -/
  | run (s : State)
  /-- It ended the step, in this state. -/
  | ended (s : State)
  | fault (f : Fault)
  | refused (r : Refusal)
deriving DecidableEq, Repr

/-- Sequencing: the rest of the pseudocode, unless the step is over. -/
def Proc.andThen (m : Proc) (k : State → Proc) : Proc :=
  match m with
  | .run s => k s
  | .ended s => .ended s
  | .fault f => .fault f
  | .refused r => .refused r

/-- The outcome of a step that is one procedure. -/
def Proc.outcome : Proc → Host.Outcome State Fault Refusal
  | .run s => .next s
  | .ended s => .next s
  | .fault f => .fault f
  | .refused r => .refused r

/-- `emit A` (R8). -/
def emit (a : Action) (s : State) : State := { s with out := s.out ++ [a] }

/-- `raise E` (R8, R259). -/
def raise (e : RaisedError) (s : State) : State := { s with raised := s.raised ++ [e] }

/-- The enabling condition every event but RESET has: `fatal = 0` (R49). -/
def whenAlive (s : State) (m : Proc) : Proc := if s.fatal then .refused .halted else m

/-! ### Buffer accesses -/

/-- `MemRead(buf, i, n)` (R8): requires `i + n <= capacity(buf)`. -/
def memRead (b : Buffer) (p : Port) (i n : Nat) (s : State) (k : List Byte → Proc) : Proc :=
  if i + n ≤ s.params.capacity b then k (s.bytesAt b p i n) else .fault (.bufferRange b p)

/-- `MemWrite(buf, i, len(vs), vs)` (R8): requires `i + n <= capacity(buf)`. -/
def memWrite (b : Buffer) (p : Port) (i : Nat) (vs : List Byte) (s : State) : Proc :=
  if i + vs.length ≤ s.params.capacity b then .run (s.store b p i vs) else .fault (.bufferRange b p)

/-! ### The fatal halt and the return from it -/

/-- `FatalHalt(4)` for channel `c` (R257): it raises `PeripheralInitFailure(c)`, sets `fatal`, emits
`Fatal(4)` and ends the step there. It saves nothing, and control goes nowhere. -/
def fatalHalt (c : Port) (s : State) : Proc :=
  .ended (emit (.fatal .peripheralInitFailure) (setFatal (raise (.peripheralInitFailure c) s)))

/-- There is no return from the fatal halt but RESET (R258, R220): every item of R20 takes its reset value
(R47) and the buffers become unspecified. The model's own fields go on: the parameters, the events not yet
taken and the record of what was emitted and raised (log entry 8). -/
def resetAll (s : State) : State :=
  { s with
    configured := false
    fatal := false
    tickFlag := false
    ctrlRxArmed := none
    ports := Two.both PortRegs.initial
    chans := Two.both (ChanRegs.initial s.params.ringCap)
    bufs := Two.both Buffers.unwritten
    resets := s.resets + 1 }

/-! ### Reconfiguration -/

/-- `Reconfigure(c)` (R134). -/
def reconfigure (c : Port) (s : State) : Proc :=
  let stopped := stopDma c (emit (.uartDeinit c) s)
  if s.draws.deinitOk.get c then
    let framed := setUartCfg c (cfgOf (stopped.port c).lineCoding) stopped
    let inited := emit (.uartInit c (framed.chan c).uartCfg) framed
    if s.draws.initOk.get c then .run (emit (.dmaStart c) (rearm c inited))
    else fatalHalt c inited
  else fatalHalt c stopped

/-! ### Delivery and fetch -/

/-- An event delivered so that the next step takes it, with the answers the state holds. -/
def State.deliver (s : State) (r : Record) : State :=
  { s with inbox := { record := r, draws := s.draws } :: s.inbox }

/-- What the next step takes: the oldest event not yet taken, and the state in which its instruction runs,
with the event gone from the queue and its answers ready to be drawn. -/
def fetch (s : State) : Option (Record × State) :=
  match s.inbox with
  | [] => none
  | d :: rest => some (d.record, { s with inbox := rest, draws := d.draws })

end Sys2Proof.Machine
end

