-- ==== Sys2Proof/Machine/Control.lean ====
section
/-! DEFINITION. The control-request state machine (spec/40_control_requests.md): the line-discipline control
handler, the class paths, the SETUP event, and CTRL_DATA_COMPLETE. -/

namespace Sys2Proof.Machine

/-! ### The line-discipline control handler -/

/-- `SetLineCoding(p)` (R133): the payload is `ctrl_buf[p][0..7)`. -/
def setLineCodingOp (p : Port) (s : State) : Proc :=
  memRead .ctrlBuf p 0 7 s fun bytes => reconfigure p (setLineCodingReg p (lineCodingOfList bytes) s)

/-- `ctrl_buf[p][0..7) <- line_coding[p]` (R136). -/
def getLineCodingOp (p : Port) (s : State) : Proc :=
  memWrite .ctrlBuf p 0 (lineCodingBytes (s.port p).lineCoding) s

/-- The handler of an accepted request without effect (R137) and of an unrecognised one (R138). -/
def noEffectOp (s : State) : Proc := .run s

/-- `Control(p, opcode, length)` (R131); no handler reads `length`. -/
def control (p : Port) (opcode : Byte) (s : State) : Proc :=
  match opcode.toNat with
  | 0x20 => setLineCodingOp p s
  | 0x21 => getLineCodingOp p s
  | 0x00 => noEffectOp s
  | 0x01 => noEffectOp s
  | 0x02 => noEffectOp s
  | 0x03 => noEffectOp s
  | 0x04 => noEffectOp s
  | 0x22 => noEffectOp s
  | 0x23 => noEffectOp s
  | _ => noEffectOp s

/-! ### The paths of a setup packet

`handler` is what `Control` does for the request at hand. -/

/-- `ClassNoData(p, opcode)`, P1 (R126). -/
def classNoData (handler : State → Proc) (s : State) : Proc := handler s

/-- `ClassIn(p, opcode, length)`, P2 (R124); a longer request than the control buffer is refused (U5). -/
def classIn (p : Port) (handler : State → Proc) (length : Nat) (s : State) : Proc :=
  if length ≤ s.params.ctrlBufCap then
    (handler s).andThen fun t => memRead .ctrlBuf p 0 length t fun bytes => .run (emit (.ctrlSend bytes) t)
  else .refused .classRequestTooLong

/-- `ClassOut(p, opcode, length)`, P3 (R125); a longer request than the control buffer is refused (U5). -/
def classOut (p : Port) (opcode : Byte) (wLength : Half) (s : State) : Proc :=
  if lengthOf wLength ≤ s.params.ctrlBufCap then
    .run (setPending p (some { opcode := opcode, length := wLength })
      (setCtrlRxArmed (some { port := p, length := lengthOf wLength })
        (emit (.ctrlReceive p (lengthOf wLength)) s)))
  else .refused .classRequestTooLong

/-- `GetInterface(p)`, P4 (R129). -/
def getInterface (s : State) : Proc := .run (emit (.ctrlSend [0x00]) s)

/-- P5: no Port state changes and no action is emitted (R130). -/
def otherRequest (s : State) : Proc := .run s

/-- The head of every SETUP step: `fatal = 0`, then `ctrl_rx_armed <- None` (R121), then `Route(iface)`
(R122), which ends the step for an unroutable request. -/
def setupStep (wIndex : Half) (s : State) (body : Port → State → Proc) : Proc :=
  whenAlive s <|
    let cleared := setCtrlRxArmed none s
    let iface := ifaceOf wIndex
    match routeIface cleared iface with
    | some p => body p cleared
    | none => .ended (emit (.diag .unroutableRequest iface) (raise (.unroutableRequest iface) cleared))

/-- A class request by its path (R120): `length = 0` first, whatever `dir` (90_conflicts.md C5). -/
def classPath (opcode : Byte) (handler : Port → State → Proc) (dir : Dir) (wLength : Half) (p : Port)
    (s : State) : Proc :=
  if wLength = 0 then classNoData (handler p) s
  else
    match dir with
    | .deviceToHost => classIn p (handler p) (lengthOf wLength) s
    | .hostToDevice => classOut p opcode wLength s

/-- A class request whose code is known: the SETUP step of its packet. -/
def classStep (opcode : Byte) (handler : Port → State → Proc) (r : ClassRequest) (s : State) : Proc :=
  setupStep r.wIndex s (classPath opcode handler r.dir r.wLength)

/-! ### SETUP -/

/-- SETUP (R120). -/
def execSetup (pkt : SetupPacket) (s : State) : Host.Outcome State Fault Refusal :=
  (setupStep pkt.wIndex s fun p t =>
    if pkt.reqType = .classType then
      classPath pkt.bRequest (fun q => control q pkt.bRequest) pkt.dir pkt.wLength p t
    else if pkt.reqType = .standard ∧ pkt.bRequest = 0x0A then getInterface t
    else otherRequest t).outcome

/-! ### SETUP by path (R100) -/

/-- PATH_CLASS_NODATA (R126). -/
def execPathClassNodata (_dir : Dir) (_recipient : BitVec 5) (bRequest : Byte) (_wValue wIndex : Half)
    (s : State) : Host.Outcome State Fault Refusal :=
  (setupStep wIndex s fun p t => classNoData (control p bRequest) t).outcome

/-- PATH_CLASS_IN (R124). -/
def execPathClassIn (_recipient : BitVec 5) (bRequest : Byte) (_wValue wIndex wLength : Half) (s : State) :
    Host.Outcome State Fault Refusal :=
  (setupStep wIndex s fun p t => classIn p (control p bRequest) (lengthOf wLength) t).outcome

/-- PATH_CLASS_OUT (R125). -/
def execPathClassOut (_recipient : BitVec 5) (bRequest : Byte) (_wValue wIndex wLength : Half) (s : State) :
    Host.Outcome State Fault Refusal :=
  (setupStep wIndex s fun p t => classOut p bRequest wLength t).outcome

/-- PATH_STD_GET_INTERFACE (R129). -/
def execPathStdGetInterface (_dir : Dir) (_recipient : BitVec 5) (_wValue wIndex _wLength : Half) (s : State) :
    Host.Outcome State Fault Refusal :=
  (setupStep wIndex s fun _ t => getInterface t).outcome

/-- PATH_OTHER (R130). -/
def execPathOther (pkt : SetupPacket) (s : State) : Host.Outcome State Fault Refusal :=
  (setupStep pkt.wIndex s fun _ t => otherRequest t).outcome

/-! ### SETUP by class request (R101) -/

/-- SEND_ENCAPSULATED_COMMAND (R137). -/
def execSendEncapsulatedCommand (r : ClassRequest) (s : State) : Host.Outcome State Fault Refusal :=
  (classStep 0x00 (fun _ => noEffectOp) r s).outcome

/-- GET_ENCAPSULATED_RESPONSE (R137). -/
def execGetEncapsulatedResponse (r : ClassRequest) (s : State) : Host.Outcome State Fault Refusal :=
  (classStep 0x01 (fun _ => noEffectOp) r s).outcome

/-- SET_COMM_FEATURE (R137). -/
def execSetCommFeature (r : ClassRequest) (s : State) : Host.Outcome State Fault Refusal :=
  (classStep 0x02 (fun _ => noEffectOp) r s).outcome

/-- GET_COMM_FEATURE (R137). -/
def execGetCommFeature (r : ClassRequest) (s : State) : Host.Outcome State Fault Refusal :=
  (classStep 0x03 (fun _ => noEffectOp) r s).outcome

/-- CLEAR_COMM_FEATURE (R137). -/
def execClearCommFeature (r : ClassRequest) (s : State) : Host.Outcome State Fault Refusal :=
  (classStep 0x04 (fun _ => noEffectOp) r s).outcome

/-- SET_LINE_CODING (R133). -/
def execSetLineCoding (r : ClassRequest) (s : State) : Host.Outcome State Fault Refusal :=
  (classStep 0x20 setLineCodingOp r s).outcome

/-- GET_LINE_CODING (R136). -/
def execGetLineCoding (r : ClassRequest) (s : State) : Host.Outcome State Fault Refusal :=
  (classStep 0x21 getLineCodingOp r s).outcome

/-- SET_CONTROL_LINE_STATE (R137). -/
def execSetControlLineState (r : ClassRequest) (s : State) : Host.Outcome State Fault Refusal :=
  (classStep 0x22 (fun _ => noEffectOp) r s).outcome

/-- SEND_BREAK (R137). -/
def execSendBreak (r : ClassRequest) (s : State) : Host.Outcome State Fault Refusal :=
  (classStep 0x23 (fun _ => noEffectOp) r s).outcome

/-- CLASS_UNKNOWN (R138). -/
def execClassUnknown (bRequest : Byte) (r : ClassRequest) (s : State) : Host.Outcome State Fault Refusal :=
  (classStep bRequest (fun _ => noEffectOp) r s).outcome

/-! ### CTRL_DATA_COMPLETE -/

/-- `ProcessPending(p)` (R128): the clear comes after the handler. -/
def processPending (p : Port) (s : State) : Proc :=
  match (s.port p).pendingCommand with
  | some c => (control p c.opcode s).andThen fun t => .run (setPending p none t)
  | none => .run s

/-- CTRL_DATA_COMPLETE (R127). -/
def execCtrlDataComplete (data : List Byte) (s : State) : Host.Outcome State Fault Refusal :=
  (whenAlive s <|
    match s.ctrlRxArmed with
    | some a =>
      if data.length = a.length then
        (memWrite .ctrlBuf a.port 0 data s).andThen fun t => processPending a.port (setCtrlRxArmed none t)
      else .refused .ctrlDataLength
    | none => .refused .ctrlDataNotArmed).outcome

end Sys2Proof.Machine
end

