-- ==== Sys2Proof/Machine/Lifecycle.lean ====
section
/-! DEFINITION. Reset, configuration and de-configuration (spec/43_dispatcher_lifecycle.md): OpenAll,
PortCreate, ChannelInit, Teardown, and the events RESET, CONFIGURE and DECONFIGURE. -/

namespace Sys2Proof.Machine

/-- RESET (R220), enabled in every state; it emits nothing. -/
def execReset (s : State) : Host.Outcome State Fault Refusal := (Proc.run (resetAll s)).outcome

/-- One port's part of `OpenAll()` (R223). -/
def openPort (p : Port) (s : State) : State :=
  emit (.openEndpoint (s.params.epCmd.get p) .interrupt Params.intrMaxPacket)
    (emit (.openEndpoint (s.params.epOut.get p) .bulk s.params.maxPacket)
      (emit (.openEndpoint (s.params.epIn.get p) .bulk s.params.maxPacket) s))

/-- `OpenAll()` (R223). -/
def openAll (s : State) : State := openPort .p1 (openPort .p0 s)

/-- `PortCreate(p)` (R225): the creation values are the reset values of R47. -/
def portCreate (p : Port) (s : State) : State := s.modPort p (fun _ => PortRegs.initial)

/-- `ChannelInit(c)` (R225), the line-discipline operation `init` (R233). -/
def channelInit (c : Port) (s : State) : Proc :=
  let idle := startLine c 0 (setLineBusy c false s)
  let framed := setUartCfg c (cfgOf (idle.port c).lineCoding) idle
  let inited := emit (.uartInit c (framed.chan c).uartCfg) framed
  if s.draws.initOk.get c then .run (emit (.dmaStart c) (rearm c inited)) else fatalHalt c inited

/-- Arming of one OUT endpoint (R224). -/
def armOut (p : Port) (s : State) : State :=
  emit (.armReceive (s.params.epOut.get p)) (setOutArmed p true s)

/-- CONFIGURE (R221); no effect while configured (R226). -/
def execConfigure (s : State) : Host.Outcome State Fault Refusal :=
  (whenAlive s <|
    if s.configured then .run s
    else if s.draws.allocOk then
      let created := portCreate .p1 (portCreate .p0 (openAll s))
      ((channelInit .p0 created).andThen (channelInit .p1)).andThen fun t =>
        .run (emit (.configResult true) (setConfigured true (armOut .p1 (armOut .p0 t))))
    else .ended (emit (.configResult false) (raise .allocationFailure s))).outcome

/-- One port's endpoints closed (R227). -/
def closePort (p : Port) (s : State) : State :=
  emit (.closeEndpoint (s.params.epCmd.get p))
    (emit (.closeEndpoint (s.params.epOut.get p)) (emit (.closeEndpoint (s.params.epIn.get p)) s))

/-- The line-discipline operation `deinit` (R227, R233). -/
def channelDeinit (c : Port) (s : State) : Proc :=
  let stopped := stopDma c (emit (.uartDeinit c) s)
  if s.draws.deinitOk.get c then .run stopped else fatalHalt c stopped

/-- One channel's reset values, its sticky error flags kept (R228). -/
def teardownChan (ringCap : Nat) (r : ChanRegs) : ChanRegs :=
  { ChanRegs.initial ringCap with errOverrun := r.errOverrun, errFraming := r.errFraming }

/-- `Teardown()` (R228): every Port and Channel item and `ctrl_rx_armed` take their reset values, except the
buffers and the sticky error flags; `tick_flag` and `fatal` are not touched. -/
def teardown (s : State) : State :=
  { s with
    ctrlRxArmed := none
    ports := Two.both PortRegs.initial
    chans :=
      { at0 := teardownChan s.params.ringCap s.chans.at0, at1 := teardownChan s.params.ringCap s.chans.at1 } }

/-- DECONFIGURE (R227); no effect while unconfigured (R229). -/
def execDeconfigure (s : State) : Host.Outcome State Fault Refusal :=
  (whenAlive s <|
    if s.configured then
      ((channelDeinit .p0 (closePort .p1 (closePort .p0 s))).andThen (channelDeinit .p1)).andThen fun t =>
        .run (setConfigured false (teardown t))
    else .run s).outcome

end Sys2Proof.Machine
end

