-- ==== Sys2Proof/Machine/LineErrors.lean ====
section
/-! DEFINITION. The UART error callback (spec/60_exceptions.md R255, R256): drop and resynchronize. -/

namespace Sys2Proof.Machine

/-- UART_ERROR (R256): the sticky flag of the kind, the error, the diagnostic; nothing else. A kind that is
neither overrun nor framing names nothing and is refused (R102 (g), U14). -/
def execUartError (c : Port) (kind : Byte) (s : State) : Host.Outcome State Fault Refusal :=
  (whenAlive s <|
    match lineErrorOf kind with
    | some .overrun =>
      .run (emit (.diag .uartOverrun (infoOfChannel c)) (raise (.uartOverrun c) (flagOverrun c s)))
    | some .framing =>
      .run (emit (.diag .uartFraming (infoOfChannel c)) (raise (.uartFraming c) (flagFraming c s)))
    | none => .refused .unknownErrorKind).outcome

end Sys2Proof.Machine
end

