-- ==== Sys2Proof/Machine/Bulk.lean ====
section
/-! DEFINITION. The bulk data path and the UART transmit path (spec/41_bulk_data.md): Transmit, InComplete,
Receive, and the events DATA_IN_COMPLETE, DATA_OUT_COMPLETE, UART_TX_BYTE and UART_TX_COMPLETE. -/

namespace Sys2Proof.Machine

/-- `Transmit(p, n)` (R167): the per-port guard (90_conflicts.md C2), then the transfer of
`tx_buf[p][0..n)`. -/
def transmit (p : Port) (n : Nat) (s : State) : Proc :=
  match (s.port p).txState with
  | .busy => .run (raise (.busy p) s)
  | .idle => memRead .txBuf p 0 n s fun bytes =>
      .run (emit (.usbTransmit (s.params.epIn.get p) bytes) (setTxBusy p n s))

/-- `InComplete(p)` (R161). -/
def inComplete (p : Port) (s : State) : Proc := .run (setTxIdle p s)

/-- DATA_IN_COMPLETE (R160): an endpoint that is no `EP_IN[p]`, and any endpoint while unconfigured, is
ignored. -/
def execDataInComplete (ep : Byte) (s : State) : Host.Outcome State Fault Refusal :=
  (whenAlive s <|
    match routeIn s ep with
    | some p => inComplete p s
    | none => .run s).outcome

/-- `Receive(c, n)` (R164): a zero-length packet makes the channel busy only with `ZLP_OUT_REARM`. -/
def receive (c : Port) (n : Nat) (s : State) : Proc :=
  let started := emit (.uartTxStart c n) (startLine c n s)
  if 0 < n ∨ s.params.zlpOutRearm = true then .run (setLineBusy c true started) else .run started

/-- DATA_OUT_COMPLETE (R162, R163). -/
def execDataOutComplete (ep : Byte) (data : List Byte) (s : State) : Host.Outcome State Fault Refusal :=
  (whenAlive s <|
    match routeOut s ep with
    | none => .refused .outNoEndpoint
    | some p =>
      if (s.port p).outArmed then
        if data.length ≤ s.params.maxPacket then
          (memWrite .rxBuf p 0 data s).andThen fun t =>
            receive p data.length (setOutArmed p false (setRxLength p data.length t))
        else .refused .outTooLong
      else .refused .outNotArmed).outcome

/-- UART_TX_BYTE (R165). -/
def execUartTxByte (c : Port) (s : State) : Host.Outcome State Fault Refusal :=
  (whenAlive s <|
    let r := s.chan c
    if r.uartTxBusy then
      if r.uartTxPos < r.uartTxLen then
        if r.uartTxPos < s.params.capacity .rxBuf then
          .run (setLinePos c (r.uartTxPos + 1)
            (emit (.lineByte c (s.byteAt .rxBuf c r.uartTxPos) r.uartCfg) s))
        else .fault (.bufferRange .rxBuf c)
      else .refused .lineAllSent
    else .refused .lineNotSending).outcome

/-- UART_TX_COMPLETE (R166). -/
def execUartTxComplete (c : Port) (s : State) : Host.Outcome State Fault Refusal :=
  (whenAlive s <|
    let r := s.chan c
    if r.uartTxBusy then
      if r.uartTxPos = r.uartTxLen then
        .run (emit (.armReceive (s.params.epOut.get c)) (setOutArmed c true (setLineBusy c false s)))
      else .refused .lineBytesLeft
    else .refused .lineNotSending).outcome

end Sys2Proof.Machine
end

