-- ==== Sys2Proof/Machine/Ring.lean ====
section
/-! DEFINITION. The circular DMA ring, the tick timer and the Bridge Scheduler (spec/42_ring_scheduler.md):
DmaStore, Drain, and the events UART_RX_BYTE, TIMER_TICK and SCHED_RUN. -/

namespace Sys2Proof.Machine

/-- `DmaStore(c, b)` (R191): the store at the write cursor, then the count, which reloads to `RING_CAP`. -/
def dmaStore (c : Port) (b : Byte) (s : State) : Proc :=
  let cap := s.params.ringCap
  let remaining := (s.chan c).rxRemaining
  if 1 ≤ remaining ∧ remaining ≤ cap then
    (memWrite .rxRing c (writeCursor cap remaining) [b] s).andThen fun t =>
      .run (setRxRemaining c (if remaining = 1 then cap else remaining - 1) t)
  else .fault (.ringRange c)

/-- UART_RX_BYTE (R190): while the DMA engine is stopped the byte is discarded (R192). -/
def execUartRxByte (c : Port) (b : Byte) (s : State) : Host.Outcome State Fault Refusal :=
  (whenAlive s <| if (s.chan c).dmaRunning then dmaStore c b s else .run s).outcome

/-- TIMER_TICK (R193). -/
def execTimerTick (s : State) : Host.Outcome State Fault Refusal :=
  (whenAlive s <| .run (setTick true s)).outcome

/-- Step 3 of the drain (R195, R198): one run, or two where the unread bytes wrap. -/
def copyOut (p : Port) (w r : Nat) (s : State) : Proc :=
  if w < r then
    memRead .rxRing p r (s.params.ringCap - r) s fun first =>
      memRead .rxRing p 0 w s fun second =>
        (memWrite .txBuf p 0 first s).andThen fun t => memWrite .txBuf p (s.params.ringCap - r) second t
  else
    memRead .rxRing p r (w - r) s fun bytes => memWrite .txBuf p 0 bytes s

/-- `Drain(p)` (R195): the Busy test comes before the copy (90_conflicts.md C3). -/
def drain (p : Port) (s : State) : Proc :=
  let cap := s.params.ringCap
  let r := (s.chan p).rxReadCursor
  let remaining := (s.chan p).rxRemaining
  if 1 ≤ remaining ∧ remaining ≤ cap ∧ r < cap then
    let w := writeCursor cap remaining
    let n := bytesAvailable cap w r
    if n = 0 then .run s
    else
      match (s.port p).txState with
      | .busy => .run (raise (.busy p) (setReadCursor p w s))
      | .idle => (copyOut p w r s).andThen fun t => transmit p n (setReadCursor p w t)
  else .fault (.ringRange p)

/-- SCHED_RUN (R194): port 0, then port 1. -/
def execSchedRun (s : State) : Host.Outcome State Fault Refusal :=
  (whenAlive s <|
    if s.tickFlag then
      let cleared := setTick false s
      if s.configured then (drain .p0 cleared).andThen (drain .p1) else .run cleared
    else .refused .noTick).outcome

end Sys2Proof.Machine
end

