-- ==== Sys2Proof/Machine/Dispatch.lean ====
section
/-! DEFINITION. One arm per instruction, each one call of its meaning. -/

namespace Sys2Proof.Machine

def exec (i : Instr) (s : State) : Host.Outcome State Fault Refusal :=
  match i with
  | .reset => Sys2Proof.Machine.execReset s
  | .configure => Sys2Proof.Machine.execConfigure s
  | .deconfigure => Sys2Proof.Machine.execDeconfigure s
  | .setup pkt => Sys2Proof.Machine.execSetup pkt s
  | .ctrlDataComplete data => Sys2Proof.Machine.execCtrlDataComplete data s
  | .dataInComplete ep => Sys2Proof.Machine.execDataInComplete ep s
  | .dataOutComplete ep data => Sys2Proof.Machine.execDataOutComplete ep data s
  | .uartRxByte c b => Sys2Proof.Machine.execUartRxByte c b s
  | .uartTxByte c => Sys2Proof.Machine.execUartTxByte c s
  | .uartTxComplete c => Sys2Proof.Machine.execUartTxComplete c s
  | .uartError c kind => Sys2Proof.Machine.execUartError c kind s
  | .timerTick => Sys2Proof.Machine.execTimerTick s
  | .schedRun => Sys2Proof.Machine.execSchedRun s
  | .pathClassNodata dir recipient bRequest wValue wIndex => Sys2Proof.Machine.execPathClassNodata dir recipient bRequest wValue wIndex s
  | .pathClassIn recipient bRequest wValue wIndex wLength => Sys2Proof.Machine.execPathClassIn recipient bRequest wValue wIndex wLength s
  | .pathClassOut recipient bRequest wValue wIndex wLength => Sys2Proof.Machine.execPathClassOut recipient bRequest wValue wIndex wLength s
  | .pathStdGetInterface dir recipient wValue wIndex wLength => Sys2Proof.Machine.execPathStdGetInterface dir recipient wValue wIndex wLength s
  | .pathOther pkt => Sys2Proof.Machine.execPathOther pkt s
  | .sendEncapsulatedCommand r => Sys2Proof.Machine.execSendEncapsulatedCommand r s
  | .getEncapsulatedResponse r => Sys2Proof.Machine.execGetEncapsulatedResponse r s
  | .setCommFeature r => Sys2Proof.Machine.execSetCommFeature r s
  | .getCommFeature r => Sys2Proof.Machine.execGetCommFeature r s
  | .clearCommFeature r => Sys2Proof.Machine.execClearCommFeature r s
  | .setLineCoding r => Sys2Proof.Machine.execSetLineCoding r s
  | .getLineCoding r => Sys2Proof.Machine.execGetLineCoding r s
  | .setControlLineState r => Sys2Proof.Machine.execSetControlLineState r s
  | .sendBreak r => Sys2Proof.Machine.execSendBreak r s
  | .classUnknown bRequest r => Sys2Proof.Machine.execClassUnknown bRequest r s

end Sys2Proof.Machine
end

