-- ==== Sys2Proof/Machine/Step.lean ====
section
/-! DEFINITION. One step of the block: the complete handling of the oldest event not yet taken
(spec/00_scope.md R2). -/

namespace Sys2Proof.Machine

/-- One step. With no event delivered nothing happens: the main loop idles, which "has no state and no
effect" (R203; log entry 4). -/
def step (s : State) : Host.Outcome State Fault Refusal :=
  match fetch s with
  | none => .next s
  | some (r, t) =>
    match decode r with
    | .ok i => exec i t
    | .error e => .refused (.undecodable e)

/-- The state in which the next step takes the event of a table word, with the answers the state holds. -/
def State.withFetchWord (s : State) (nbits w : Nat) : State := s.deliver (recordOfTableWord nbits w)

end Sys2Proof.Machine
end

