-- ==== Sys2Proof/Safety.lean ====
section
/-! DEFINITION. The terms claims use: the invariant of spec/10_state.md R46, what a frame keeps, which pair an
event concerns, and runs of events with what they receive and emit. -/

namespace Sys2Proof.Machine

/-! ### The invariant -/

/-- The invariants (I-a) to (I-h) of R46, and the ranges R31 and R37 give `ctrl_rx_armed` and the line
registers. -/
structure LiveRules (s : State) : Prop where
  /-- (I-a). -/
  ringRegisters : ∀ c, 1 ≤ (s.chan c).rxRemaining ∧ (s.chan c).rxRemaining ≤ s.params.ringCap ∧
    (s.chan c).rxReadCursor < s.params.ringCap
  /-- (I-b). -/
  armedNotSending : ∀ p, (s.port p).outArmed = true → (s.chan p).uartTxBusy = false
  /-- (I-c). -/
  unconfiguredIdle : s.configured = false → s.ctrlRxArmed = none ∧
    ∀ p, (s.port p).txState = .idle ∧ (s.port p).outArmed = false ∧ (s.port p).pendingCommand = none ∧
      (s.chan p).dmaRunning = false ∧ (s.chan p).uartTxBusy = false
  /-- (I-d). -/
  busyLength : ∀ p, (s.port p).txState = .busy → 1 ≤ (s.port p).txLen ∧ (s.port p).txLen ≤ s.params.ringCap - 1
  /-- (I-e). -/
  sendingLength : ∀ c, (s.chan c).uartTxBusy = true → (s.chan c).uartTxLen = (s.port c).rxLength
  /-- (I-e) and R37: `0 <= uart_tx_pos <= uart_tx_len <= MAX_PACKET`. -/
  lineRange : ∀ c, (s.chan c).uartTxPos ≤ (s.chan c).uartTxLen ∧ (s.chan c).uartTxLen ≤ s.params.maxPacket
  /-- (I-f). -/
  armedPending : ∀ a, s.ctrlRxArmed = some a →
    ∃ c, (s.port a.port).pendingCommand = some c ∧ c.length.toNat = a.length
  /-- R31: "n in 1..`CTRL_BUF_CAP`". -/
  armedRange : ∀ a, s.ctrlRxArmed = some a → 1 ≤ a.length ∧ a.length ≤ s.params.ctrlBufCap
  /-- (I-g). -/
  configuredRunning : s.configured = true → ∀ c, (s.chan c).dmaRunning = true
  /-- (I-h). -/
  framingCurrent : ∀ c, (s.chan c).uartCfg = cfgOf (s.port c).lineCoding

/-- Every buffer is in canonical form and lists only indices below its capacity (R60). -/
def BuffersOk (s : State) : Prop :=
  ∀ b p, (s.mem b p).wf ∧ (s.mem b p).within (s.params.capacity b)

/-- The model's invariant: admissible parameters (R6), canonical buffers, and R46 while `fatal = 0` ("Each
holds in every state reachable from RESET with `fatal = 0`"). -/
structure Invariant (s : State) : Prop where
  params : s.params.Valid
  buffers : BuffersOk s
  live : s.fatal = false → LiveRules s

/-- A step is safe when it does not fault: no buffer access leaves its buffer (R61). -/
def SafeStep (s : State) : Prop := ∀ f, step s ≠ .fault f

/-! ### Frames -/

/-- The model's own fields that no instruction writes, but for RESET's count of resets. -/
def SameEnv (s t : State) : Prop :=
  t.params = s.params ∧ t.resets = s.resets ∧ t.inbox = s.inbox ∧ t.draws = s.draws

/-- `configured`, `fatal` and `tick_flag` are unchanged. -/
def SameFlags (s t : State) : Prop :=
  t.configured = s.configured ∧ t.fatal = s.fatal ∧ t.tickFlag = s.tickFlag

/-- Every Port and Channel item is unchanged. -/
def SameRegisters (s t : State) : Prop := ∀ p, t.port p = s.port p ∧ t.chan p = s.chan p

/-- Every byte of every buffer reads as before. -/
def SameBytes (s t : State) : Prop := ∀ b p i, t.byteAt b p i = s.byteAt b p i

/-- Every byte outside `B[lo..lo+n)` of one buffer reads as before. -/
def SameBytesOutside (s t : State) (b : Buffer) (p : Port) (lo n : Nat) : Prop :=
  ∀ b' p' i, ¬((b' = b ∧ p' = p) ∧ lo ≤ i ∧ i < lo + n) → t.byteAt b' p' i = s.byteAt b' p' i

/-- The registers and buffers of port and channel `p` are unchanged. -/
def SamePair (s t : State) (p : Port) : Prop :=
  t.port p = s.port p ∧ t.chan p = s.chan p ∧ ∀ b i, t.byteAt b p i = s.byteAt b p i

/-- The step's actions. -/
def Emits (s t : State) (actions : List Action) : Prop := t.out = s.out ++ actions

/-- The step's errors. -/
def Raises (s t : State) (errors : List RaisedError) : Prop := t.raised = s.raised ++ errors

/-! ### Events and the pairs they concern -/

/-- RESET, CONFIGURE and DECONFIGURE, the lifecycle events (R281). -/
def lifecycle : Instr → Bool
  | .reset => true
  | .configure => true
  | .deconfigure => true
  | _ => false

/-- A request's interface number selects port `p` (R122). -/
def Routed (s : State) (wIndex : Half) (p : Port) : Prop :=
  s.configured = true ∧ ifaceOf wIndex = s.params.cmdIf.get p

/-- A request's interface number selects no port (R122). -/
def Unroutable (s : State) (wIndex : Half) : Prop :=
  s.configured = false ∨ ∀ p, ifaceOf wIndex ≠ s.params.cmdIf.get p

/-- The packet of a SETUP event, by any row of the table. -/
def setupPacket : Instr → Option SetupPacket
  | .setup pkt => some pkt
  | .pathClassNodata dir recipient bRequest wValue wIndex =>
    some ⟨dir, .classType, recipient, bRequest, wValue, wIndex, 0⟩
  | .pathClassIn recipient bRequest wValue wIndex wLength =>
    some ⟨.deviceToHost, .classType, recipient, bRequest, wValue, wIndex, wLength⟩
  | .pathClassOut recipient bRequest wValue wIndex wLength =>
    some ⟨.hostToDevice, .classType, recipient, bRequest, wValue, wIndex, wLength⟩
  | .pathStdGetInterface dir recipient wValue wIndex wLength =>
    some ⟨dir, .standard, recipient, 0x0A, wValue, wIndex, wLength⟩
  | .pathOther pkt => some pkt
  | .sendEncapsulatedCommand r => some (r.packet 0x00)
  | .getEncapsulatedResponse r => some (r.packet 0x01)
  | .setCommFeature r => some (r.packet 0x02)
  | .getCommFeature r => some (r.packet 0x03)
  | .clearCommFeature r => some (r.packet 0x04)
  | .setLineCoding r => some (r.packet 0x20)
  | .getLineCoding r => some (r.packet 0x21)
  | .setControlLineState r => some (r.packet 0x22)
  | .sendBreak r => some (r.packet 0x23)
  | .classUnknown bRequest r => some (r.packet bRequest)
  | _ => none

/-- The `wIndex` of a SETUP event, by any row. -/
def setupIndex (i : Instr) : Option Half := (setupPacket i).map (·.wIndex)

/-- Path P3: "Class request, host-to-device, with payload" (R100, R125). -/
def OnPathOut (pkt : SetupPacket) : Prop :=
  pkt.reqType = .classType ∧ pkt.dir = .hostToDevice ∧ pkt.wLength ≠ 0

/-- The event runs `Reconfigure(c)`: a `SET_LINE_CODING` routed to `c` on P1 or P2 (R126, R124), or the data stage
armed for `c` while `SET_LINE_CODING` is its pending command (R127, R128). -/
def Reconfigures (s : State) (i : Instr) (c : Port) : Prop :=
  (∃ pkt, setupPacket i = some pkt ∧ routeIface s (ifaceOf pkt.wIndex) = some c ∧ pkt.reqType = .classType ∧
    pkt.bRequest = 0x20 ∧ (pkt.wLength = 0 ∨ pkt.dir = .deviceToHost)) ∨
  ∃ data n length, i = .ctrlDataComplete data ∧ s.ctrlRxArmed = some { port := c, length := n } ∧
    (s.port c).pendingCommand = some { opcode := 0x20, length := length }

/-- What a `Reconfigure(p)` whose deinit or init fails leaves, buffers apart (R133, R134, R257): the new line coding
stands, the block halts at the failing call, and everything before that call is done and nothing after it. -/
def HaltedReconfiguration (s t : State) (p : Port) : Prop :=
  t.fatal = true ∧
  t.port p = { s.port p with lineCoding := (t.port p).lineCoding } ∧
  (s.draws.deinitOk.get p = false →
    t.chan p = { s.chan p with dmaRunning := false } ∧
    Emits s t [.uartDeinit p, .fatal .peripheralInitFailure]) ∧
  (s.draws.deinitOk.get p = true →
    t.chan p = { s.chan p with dmaRunning := false, uartCfg := cfgOf (t.port p).lineCoding } ∧
    Emits s t [.uartDeinit p, .uartInit p (cfgOf (t.port p).lineCoding), .fatal .peripheralInitFailure]) ∧
  t.port p.other = s.port p.other ∧ t.chan p.other = s.chan p.other ∧ t.ctrlRxArmed = none ∧
  t.configured = s.configured ∧ t.tickFlag = s.tickFlag ∧ SameEnv s t ∧ Raises s t [.peripheralInitFailure p]

/-- The port an event other than a lifecycle event, TIMER_TICK and SCHED_RUN is routed to (R230 to R232). -/
def subject (s : State) (i : Instr) : Option Port :=
  match setupIndex i with
  | some wIndex => routeIface s (ifaceOf wIndex)
  | none =>
    match i with
    | .ctrlDataComplete _ => s.ctrlRxArmed.map (·.port)
    | .dataInComplete ep => routeIn s ep
    | .dataOutComplete ep _ => routeOut s ep
    | .uartRxByte c _ => some c
    | .uartTxByte c => some c
    | .uartTxComplete c => some c
    | .uartError c _ => some c
    | _ => none

/-- An endpoint of a port opened or closed, all three, in the order of D34. -/
def openActionsOf (s : State) (p : Port) : List Action := [
  .openEndpoint (s.params.epIn.get p) .bulk s.params.maxPacket,
  .openEndpoint (s.params.epOut.get p) .bulk s.params.maxPacket,
  .openEndpoint (s.params.epCmd.get p) .interrupt 64]

/-- The closing actions of a port (R227). -/
def closeActionsOf (s : State) (p : Port) : List Action := [
  .closeEndpoint (s.params.epIn.get p), .closeEndpoint (s.params.epOut.get p),
  .closeEndpoint (s.params.epCmd.get p)]

/-- `{115200, 8, 1, none}` (R36). -/
def defaultFraming : UartCfg := { baud := 115200, wordLen := .eight, stop := .one, parity := .none }

/-- `00 C2 01 00 00 00 08` (R6). -/
def defaultLineCodingBytes : List Byte := [0x00, 0xC2, 0x01, 0x00, 0x00, 0x00, 0x08]

/-- The creation values of a port (R225), armed or not. -/
def CreatedPort (r : PortRegs) (armed : Bool) : Prop :=
  lineCodingBytes r.lineCoding = defaultLineCodingBytes ∧ r.txState = .idle ∧ r.txLen = 0 ∧ r.rxLength = 0 ∧
    r.outArmed = armed ∧ r.pendingCommand = none

/-- The state SETUP on path P3 leaves: a data stage armed and the command recorded (R125). -/
def armedState (s : State) (p : Port) (opcode : Byte) (wLength : Half) : State :=
  { s with
    ctrlRxArmed := some { port := p, length := wLength.toNat }
    ports := s.ports.modify p fun r => { r with pendingCommand := some { opcode := opcode, length := wLength } }
    out := s.out ++ [.ctrlReceive p wLength.toNat] }

/-- The state SETUP on path P2 leaves when the handler has no effect: the bytes of `ctrl_buf[p]` sent
(R124). -/
def sentState (s : State) (p : Port) (wLength : Half) : State :=
  { s with ctrlRxArmed := none, out := s.out ++ [.ctrlSend (s.bytesAt .ctrlBuf p 0 wLength.toNat)] }

/-- The seven accepted no-effect requests with their codes (R137). -/
def noEffectRequests (r : ClassRequest) : List (Byte × Instr) := [
  (0x00, .sendEncapsulatedCommand r), (0x01, .getEncapsulatedResponse r), (0x02, .setCommFeature r),
  (0x03, .getCommFeature r), (0x04, .clearCommFeature r), (0x22, .setControlLineState r), (0x23, .sendBreak r)]

/-! ### Runs -/

/-- An event with the answers its step draws (R93). -/
abbrev Event := Draws × Instr

/-- The steps of a list of events, where each is enabled and gives a next state. -/
def runEvents : List Event → State → Option State
  | [], s => some s
  | (d, i) :: rest, s =>
    match exec i { s with draws := d } with
    | .next t => runEvents rest t
    | _ => none

/-- The actions a state has emitted since an earlier one. -/
def newActions (s t : State) : List Action := t.out.drop s.out.length

/-- The bytes of the UART_RX_BYTE(p, b) events (R205: `B`). -/
def receivedBytes (p : Port) : List Event → List Byte
  | [] => []
  | (_, .uartRxByte c b) :: rest => if c = p then b :: receivedBytes p rest else receivedBytes p rest
  | _ :: rest => receivedBytes p rest

/-- The bytes of the `UsbTransmit(ep, s)` actions (R205: `T`). -/
def transmittedBytes (ep : Byte) : List Action → List Byte
  | [] => []
  | .usbTransmit e s :: rest => if e = ep then s ++ transmittedBytes ep rest else transmittedBytes ep rest
  | _ :: rest => transmittedBytes ep rest

/-- The bytes of the DATA_OUT_COMPLETE(ep, data) events (R169 (b)). -/
def packetBytes (ep : Byte) : List Event → List Byte
  | [] => []
  | (_, .dataOutComplete e data) :: rest => if e = ep then data ++ packetBytes ep rest else packetBytes ep rest
  | _ :: rest => packetBytes ep rest

/-- The bytes of the `LineByte(c, b, cfg)` actions (R169 (b)). -/
def lineBytes (c : Port) : List Action → List Byte
  | [] => []
  | .lineByte c' b _ :: rest => if c' = c then b :: lineBytes c rest else lineBytes c rest
  | _ :: rest => lineBytes c rest

/-- The bytes of the packet being sent on line `c` that are still to leave: `rx_buf[c][pos..len)` while
`uart_tx_busy[c] = 1` (R37). -/
def unsentBytes (s : State) (c : Port) : List Byte :=
  if (s.chan c).uartTxBusy then
    s.bytesAt .rxBuf c (s.chan c).uartTxPos ((s.chan c).uartTxLen - (s.chan c).uartTxPos)
  else []

/-- How many bytes `Drain(p)` finds (R195 step 1). -/
def unreadCount (s : State) (p : Port) : Nat :=
  bytesAvailable s.params.ringCap (writeCursor s.params.ringCap (s.chan p).rxRemaining) (s.chan p).rxReadCursor

/-- The bytes `Drain(p)` finds, by the effective addresses of R198: "source byte k (0 <= k < n) is
`rx_ring[p][(r + k) mod RING_CAP]`". -/
def unreadBytes (s : State) (p : Port) : List Byte :=
  (List.range (unreadCount s p)).map
    (fun k => s.byteAt .rxRing p (((s.chan p).rxReadCursor + k) % s.params.ringCap))

/-- The conditions of R205 along a run: no RESET, CONFIGURE, DECONFIGURE or `Reconfigure(p)` (whose first
action is `UartDeinit(p)`); (i) at every SCHED_RUN at most `RING_CAP - 1` bytes came since the last one or
since the start, `since` of them before this list; (ii) at every SCHED_RUN at which `Drain(p)` finds bytes,
the port is Idle. -/
def LosslessRun (p : Port) : Nat → List Event → State → Prop
  | _, [], _ => True
  | since, (d, i) :: rest, s =>
    lifecycle i = false ∧
    (i = .schedRun → since ≤ s.params.ringCap - 1 ∧ (unreadCount s p ≠ 0 → (s.port p).txState = .idle)) ∧
    match exec i { s with draws := d } with
    | .next t =>
      Action.uartDeinit p ∉ newActions s t ∧
      LosslessRun p
        (match i with
          | .schedRun => 0
          | .uartRxByte c _ => if c = p then since + 1 else since
          | _ => since)
        rest t
    | _ => False

end Sys2Proof.Machine
end

