-- ==== Sys2Proof/Certificates/Slice0/Obligations.lean ====
section
/-! DEFINITION. The statements for the provers. Each is a rule of spec/ (basis stated in OBLIGATIONS.json) or
follows from several (basis derived); where a clause rests on a decision of the spec (D<n>) or on a choice of
the model (a log entry), its docstring says so. -/

open Sys2Proof Sys2Proof.Machine

/-! ### Encoding -/

/-- Decoding undoes encoding: no operand bit of any row is dropped. -/
def Obligations.DecodeOfEncode : Prop := ∀ i : Instr, i.wf = true → decode (encode i) = .ok i

/-- Every record that decodes is the encoding of what it decodes to, and that is well formed. -/
def Obligations.EncodeOfDecode : Prop :=
  ∀ (r : Record) (i : Instr), decode r = .ok i → encode i = r ∧ i.wf = true

/-- The typed decoding of a setup packet is the table's: the first SETUP_PATH row, and for a class packet the
first SETUP_CLASS row, whose mask and match the 64-bit setup word has (R100: "First match wins, top to
bottom"; the code values are the spec's general knowledge G3, G4). -/
def Obligations.SetupRowsAreFirstMatches : Prop :=
  ∀ pkt : SetupPacket,
    firstRow pathRows pkt.word = some (decodePath pkt).mnemonic ∧
    (pkt.reqType = .classType →
      ∃ i, decodeClass pkt = .ok i ∧ firstRow classRows pkt.word = some i.mnemonic)

/-- The four operands of a setup packet (R106; the layout is G1, G2; that the high byte of `wIndex` is ignored
is D24). -/
def Obligations.SetupOperandsAreAssembled : Prop :=
  ∀ b0 b1 b2 b3 b4 b5 b6 b7 : Byte,
    let pkt := packetOfBytes b0 b1 b2 b3 b4 b5 b6 b7
    (pkt.dir = .deviceToHost ↔ 128 ≤ b0.toNat) ∧
    pkt.reqType.bits.toNat = b0.toNat / 32 % 4 ∧
    pkt.recipient.toNat = b0.toNat % 32 ∧
    pkt.bRequest = b1 ∧
    ifaceOf pkt.wIndex = b4 ∧
    lengthOf pkt.wLength = b6.toNat + 256 * b7.toNat

/-- Codes `0x0D` to `0xFF` name no event (R91; the codes are decision D2). -/
def Obligations.UnassignedKindsRefused : Prop :=
  ∀ (kind : Byte) (payload : List Byte), 0x0C < kind.toNat →
    decode (eventRecord (kind :: payload)) = .error (.unknownKind kind)

/-- Words written out from the spec's encodings decode to the instructions they stand for. -/
def Obligations.SampleWordsDecode : Prop :=
  decode (eventRecord [0x00]) = .ok .reset ∧
  decode (eventRecord [0x07, 0x00, 0x48]) = .ok (.uartRxByte .p0 0x48) ∧
  decode (eventRecord [0x06, 0x01, 0x41, 0x54]) = .ok (.dataOutComplete 0x01 [0x41, 0x54]) ∧
  decode (eventRecord [0x03, 0x21, 0x20, 0x00, 0x00, 0x02, 0x00, 0x07, 0x00]) =
    .ok (.setup ⟨.hostToDevice, .classType, 1, 0x20, 0, 2, 7⟩) ∧
  decode ⟨.setupClass, [0xA1, 0x21, 0x00, 0x00, 0x00, 0x00, 0x07, 0x00]⟩ =
    .ok (.getLineCoding ⟨.deviceToHost, 1, 0, 0, 7⟩) ∧
  decode ⟨.setupPath, [0x81, 0x0A, 0x00, 0x00, 0x02, 0x00, 0x01, 0x00]⟩ =
    .ok (.pathStdGetInterface .deviceToHost 1 0 2 1)

/-! ### The step -/

/-- A step runs the decoded instruction: the oldest event leaves the queue, its answers stand ready, and the
step is its instruction's; a record that decodes to nothing is refused; a delivered table word is what the
next step runs (log entries 4, 5, 10, 12). -/
def Obligations.StepRunsDecodedInstruction : Prop :=
  (∀ (s : State) (d : Delivery) (rest : List Delivery) (i : Instr),
    s.inbox = d :: rest → decode d.record = .ok i →
      step s = exec i { s with inbox := rest, draws := d.draws }) ∧
  (∀ (s : State) (d : Delivery) (rest : List Delivery) (e : DecodeError),
    s.inbox = d :: rest → decode d.record = .error e → step s = .refused (.undecodable e)) ∧
  (∀ (s : State) (nbits w : Nat) (i : Instr), decodeTableWord nbits w = some i →
    step (s.withFetchWord nbits w) = exec i s)

/-- With no event delivered the step changes nothing (the model's reading of R203, log entry 4). -/
def Obligations.IdleWithoutEvents : Prop := ∀ s : State, s.inbox = [] → step s = .next s

/-- The reset state satisfies the invariant. -/
def Obligations.ResetSatisfiesInvariant : Prop := Invariant State.reset

/-- Every step keeps the invariant of R46, from every state that has it. -/
def Obligations.StepKeepsInvariant : Prop :=
  ∀ s t : State, Invariant s → step s = .next t → Invariant t

/-- From every state that has the invariant no step leaves a buffer (R61). -/
def Obligations.InvariantExcludesFaults : Prop := ∀ s : State, Invariant s → SafeStep s

/-- No step changes a parameter, takes back an action or an error, or takes more than one event from the
queue. -/
def Obligations.StepKeepsParametersAndHistory : Prop :=
  ∀ s t : State, step s = .next t →
    t.params = s.params ∧ s.out <+: t.out ∧ s.raised <+: t.raised ∧ t.inbox = s.inbox.tail

/-- In the halted state no event but RESET is enabled, and RESET leaves it (R22, R49; decision D35). -/
def Obligations.HaltedTakesOnlyReset : Prop :=
  ∀ s : State, s.fatal = true →
    (∀ i : Instr, i ≠ .reset → exec i s = .refused .halted) ∧
    ∃ t, exec .reset s = .next t ∧ t.fatal = false

/-- The three formats of a setup packet are the same event: decoded by path or by class request, its step is
that of SETUP (log entry 1). -/
def Obligations.SetupFormsAgree : Prop :=
  ∀ (pkt : SetupPacket) (s : State),
    exec (decodePath pkt) s = exec (.setup pkt) s ∧
    ∀ i, decodeClass pkt = .ok i → exec i s = exec (.setup pkt) s

/-! ### Lifecycle -/

/-- RESET in every state: every item of R20 has its value of R47 and every buffer byte is unspecified anew
(R220, decision D38; the model's own fields go on, log entry 8). -/
def Obligations.ResetRestoresEverything : Prop :=
  ∀ s : State, ∃ t, exec .reset s = .next t ∧
    t.configured = false ∧ t.fatal = false ∧ t.tickFlag = false ∧ t.ctrlRxArmed = none ∧
    (∀ p, CreatedPort (t.port p) false) ∧
    (∀ c, t.chan c =
      { rxRemaining := s.params.ringCap, rxReadCursor := 0, dmaRunning := false, uartCfg := defaultFraming,
        uartTxBusy := false, uartTxLen := 0, uartTxPos := 0, errOverrun := false, errFraming := false }) ∧
    (∀ b p i, t.byteAt b p i = Config.unwrittenByte (s.resets + 1) b p i) ∧
    Emits s t [] ∧ Raises s t [] ∧ t.params = s.params ∧ t.inbox = s.inbox ∧ t.draws = s.draws

/-- CONFIGURE from the unconfigured state, every answer yes: both pairs created, both DMA engines started, both
OUT endpoints armed, with the thirteen actions in order (R221 to R225; the default line coding is D9, the
order among like actions D34). -/
def Obligations.ConfigureCreatesBothPairs : Prop :=
  ∀ s : State, s.fatal = false → s.configured = false → s.draws.allocOk = true →
    (∀ c, s.draws.initOk.get c = true) →
    ∃ t, exec .configure s = .next t ∧
      t.configured = true ∧ t.fatal = false ∧ t.tickFlag = s.tickFlag ∧ t.ctrlRxArmed = s.ctrlRxArmed ∧
      (∀ p, CreatedPort (t.port p) true) ∧
      (∀ c, t.chan c =
        { rxRemaining := s.params.ringCap, rxReadCursor := 0, dmaRunning := true, uartCfg := defaultFraming,
          uartTxBusy := false, uartTxLen := 0, uartTxPos := 0,
          errOverrun := (s.chan c).errOverrun, errFraming := (s.chan c).errFraming }) ∧
      SameBytes s t ∧ SameEnv s t ∧ Raises s t [] ∧
      Emits s t (openActionsOf s .p0 ++ openActionsOf s .p1 ++
        [.uartInit .p0 defaultFraming, .dmaStart .p0, .uartInit .p1 defaultFraming, .dmaStart .p1,
          .armReceive (s.params.epOut.get .p0), .armReceive (s.params.epOut.get .p1), .configResult true])

/-- CONFIGURE whose allocation fails: nothing but the failure's report (R222, R252; decision D33). -/
def Obligations.ConfigureWithoutMemoryFails : Prop :=
  ∀ s : State, s.fatal = false → s.configured = false → s.draws.allocOk = false →
    exec .configure s =
      .next { s with out := s.out ++ [.configResult false], raised := s.raised ++ [.allocationFailure] }

/-- CONFIGURE whose first failing UART init is channel `c`'s: the block halts there, unconfigured and with no
OUT endpoint armed; the failing channel has its line registers and framing written and is not (re)armed, and
everything else keeps its value (R225, R257; the halt is decision D35, the default line coding and its framing
D9, the order of the endpoints and of the channels D34). -/
def Obligations.ConfigureHaltsOnInitFailure : Prop :=
  ∀ s : State, s.fatal = false → s.configured = false → s.draws.allocOk = true →
    (s.draws.initOk.get .p0 = false → ∃ t, exec .configure s = .next t ∧
      t.fatal = true ∧ t.configured = false ∧ t.tickFlag = s.tickFlag ∧ t.ctrlRxArmed = s.ctrlRxArmed ∧
      (∀ p, CreatedPort (t.port p) false) ∧
      t.chan .p0 = { s.chan .p0 with
        uartTxBusy := false, uartTxLen := 0, uartTxPos := 0, uartCfg := defaultFraming } ∧
      t.chan .p1 = s.chan .p1 ∧
      SameBytes s t ∧ SameEnv s t ∧ Raises s t [.peripheralInitFailure .p0] ∧
      Emits s t (openActionsOf s .p0 ++ openActionsOf s .p1 ++
        [.uartInit .p0 defaultFraming, .fatal .peripheralInitFailure])) ∧
    (s.draws.initOk.get .p0 = true → s.draws.initOk.get .p1 = false → ∃ t, exec .configure s = .next t ∧
      t.fatal = true ∧ t.configured = false ∧ t.tickFlag = s.tickFlag ∧ t.ctrlRxArmed = s.ctrlRxArmed ∧
      (∀ p, CreatedPort (t.port p) false) ∧
      t.chan .p0 = { s.chan .p0 with
        uartTxBusy := false, uartTxLen := 0, uartTxPos := 0, uartCfg := defaultFraming,
        rxRemaining := s.params.ringCap, rxReadCursor := 0, dmaRunning := true } ∧
      t.chan .p1 = { s.chan .p1 with
        uartTxBusy := false, uartTxLen := 0, uartTxPos := 0, uartCfg := defaultFraming } ∧
      SameBytes s t ∧ SameEnv s t ∧ Raises s t [.peripheralInitFailure .p1] ∧
      Emits s t (openActionsOf s .p0 ++ openActionsOf s .p1 ++
        [.uartInit .p0 defaultFraming, .dmaStart .p0, .uartInit .p1 defaultFraming,
          .fatal .peripheralInitFailure]))

/-- CONFIGURE while configured and DECONFIGURE while unconfigured change nothing and emit nothing (R226, R229;
decision D32). -/
def Obligations.RepeatedLifecycleEventsDoNothing : Prop :=
  ∀ s : State, s.fatal = false →
    (s.configured = true → exec .configure s = .next s) ∧
    (s.configured = false → exec .deconfigure s = .next s)

/-- DECONFIGURE with every answer yes: both pairs at their reset values but for the sticky error flags and the
buffers, the endpoints closed, then the UARTs stopped (R227, R228; decisions D34, D38). -/
def Obligations.DeconfigureTearsDown : Prop :=
  ∀ s : State, s.fatal = false → s.configured = true → (∀ c, s.draws.deinitOk.get c = true) →
    ∃ t, exec .deconfigure s = .next t ∧
      t.configured = false ∧ t.fatal = false ∧ t.tickFlag = s.tickFlag ∧ t.ctrlRxArmed = none ∧
      (∀ p, CreatedPort (t.port p) false) ∧
      (∀ c, t.chan c =
        { rxRemaining := s.params.ringCap, rxReadCursor := 0, dmaRunning := false, uartCfg := defaultFraming,
          uartTxBusy := false, uartTxLen := 0, uartTxPos := 0,
          errOverrun := (s.chan c).errOverrun, errFraming := (s.chan c).errFraming }) ∧
      SameBytes s t ∧ SameEnv s t ∧ Raises s t [] ∧
      Emits s t (closeActionsOf s .p0 ++ closeActionsOf s .p1 ++ [.uartDeinit .p0, .uartDeinit .p1])

/-- DECONFIGURE whose first failing UART deinit is channel `c`'s: the block halts there, before the teardown
(R227, R257; decisions D34, D35). -/
def Obligations.DeconfigureHaltsOnDeinitFailure : Prop :=
  ∀ s : State, s.fatal = false → s.configured = true →
    (s.draws.deinitOk.get .p0 = false → exec .deconfigure s = .next { s with
      fatal := true
      chans := s.chans.modify .p0 fun r => { r with dmaRunning := false }
      out := s.out ++ (closeActionsOf s .p0 ++ closeActionsOf s .p1 ++
        [.uartDeinit .p0, .fatal .peripheralInitFailure])
      raised := s.raised ++ [.peripheralInitFailure .p0] }) ∧
    (s.draws.deinitOk.get .p0 = true → s.draws.deinitOk.get .p1 = false → exec .deconfigure s = .next { s with
      fatal := true
      chans := (s.chans.modify .p0 fun r => { r with dmaRunning := false }).modify .p1
        fun r => { r with dmaRunning := false }
      out := s.out ++ (closeActionsOf s .p0 ++ closeActionsOf s .p1 ++
        [.uartDeinit .p0, .uartDeinit .p1, .fatal .peripheralInitFailure])
      raised := s.raised ++ [.peripheralInitFailure .p1] })

/-! ### Control requests -/

/-- A SETUP event, by any row of the table, that no port takes: one diagnostic, no response, and only the armed
data stage is cleared (R121, R122, R253; while unconfigured by decision D31, the diagnostic by D41). -/
def Obligations.UnroutableRequestIsDropped : Prop :=
  ∀ (s : State) (i : Instr) (wIndex : Half), s.fatal = false → setupIndex i = some wIndex →
    Unroutable s wIndex →
    exec i s = .next { s with
      ctrlRxArmed := none
      out := s.out ++ [.diag .unroutableRequest (ifaceOf wIndex)]
      raised := s.raised ++ [.unroutableRequest (ifaceOf wIndex)] }

/-- R125, path P3: `CtrlReceive`, the armed receive and the pending command, whatever the opcode and whatever
was pending. -/
def Obligations.ClassOutArmsDataStage : Prop :=
  ∀ (s : State) (pkt : SetupPacket) (p : Port), s.fatal = false → s.params.Valid → Routed s pkt.wIndex p →
    pkt.reqType = .classType → pkt.dir = .hostToDevice → pkt.wLength ≠ 0 →
    pkt.wLength.toNat ≤ s.params.ctrlBufCap →
    (∀ i ∈ [Instr.setup pkt, .pathClassOut pkt.recipient pkt.bRequest pkt.wValue pkt.wIndex pkt.wLength],
      exec i s = .next (armedState s p pkt.bRequest pkt.wLength)) ∧
    ctrlState (armedState s p pkt.bRequest pkt.wLength) p = .awaitingData

/-- R137, the seven accepted no-effect requests: on P1 nothing happens, on P2 `ctrl_buf[p]` is sent unchanged,
on P3 a data stage is armed, and that data stage is stored in `ctrl_buf[p]` and otherwise only ends the wait. -/
def Obligations.NoEffectRequestsFollowTheirPath : Prop :=
  ∀ (s : State) (p : Port), s.fatal = false → s.params.Valid →
    (∀ (r : ClassRequest), Routed s r.wIndex p → ∀ request ∈ noEffectRequests r,
      (r.wLength = 0 → exec request.2 s = .next { s with ctrlRxArmed := none }) ∧
      (r.wLength ≠ 0 → r.wLength.toNat ≤ s.params.ctrlBufCap → r.dir = .deviceToHost →
        exec request.2 s = .next (sentState s p r.wLength)) ∧
      (r.wLength ≠ 0 → r.wLength.toNat ≤ s.params.ctrlBufCap → r.dir = .hostToDevice →
        exec request.2 s = .next (armedState s p request.1 r.wLength))) ∧
    (∀ (data : List Byte) (c : PendingCommand),
      s.ctrlRxArmed = some { port := p, length := data.length } → data.length ≤ s.params.ctrlBufCap →
      (s.port p).pendingCommand = some c → c.opcode ∈ [0x00, 0x01, 0x02, 0x03, 0x04, 0x22, 0x23] →
      ∃ t, exec (.ctrlDataComplete data) s = .next t ∧
        t.bytesAt .ctrlBuf p 0 data.length = data ∧ SameBytesOutside s t .ctrlBuf p 0 data.length ∧
        t.ports = s.ports.modify p (fun r => { r with pendingCommand := none }) ∧ t.chans = s.chans ∧
        t.ctrlRxArmed = none ∧ SameFlags s t ∧ SameEnv s t ∧ Emits s t [] ∧ Raises s t [])

/-- A class request whose code is neither `SET_LINE_CODING` nor `GET_LINE_CODING`, on each path, as SETUP and by
its path's row, and an unrecognised one as CLASS_UNKNOWN too: the path runs and the handler does nothing
(R124, R126, R138; that the path is not skipped for an unrecognised code is decision D28). -/
def Obligations.OtherClassRequestsFollowTheirPath : Prop :=
  ∀ (s : State) (pkt : SetupPacket) (p : Port), s.fatal = false → s.params.Valid → Routed s pkt.wIndex p →
    pkt.reqType = .classType → pkt.bRequest ≠ 0x20 → pkt.bRequest ≠ 0x21 →
    (pkt.wLength = 0 →
      ∀ i ∈ [Instr.setup pkt, .pathClassNodata pkt.dir pkt.recipient pkt.bRequest pkt.wValue pkt.wIndex,
          .classUnknown pkt.bRequest pkt.classRequest],
        exec i s = .next { s with ctrlRxArmed := none }) ∧
    (pkt.wLength ≠ 0 → pkt.wLength.toNat ≤ s.params.ctrlBufCap → pkt.dir = .deviceToHost →
      ∀ i ∈ [Instr.setup pkt, .pathClassIn pkt.recipient pkt.bRequest pkt.wValue pkt.wIndex pkt.wLength,
          .classUnknown pkt.bRequest pkt.classRequest],
        exec i s = .next (sentState s p pkt.wLength)) ∧
    (pkt.wLength ≠ 0 → pkt.wLength.toNat ≤ s.params.ctrlBufCap → pkt.dir = .hostToDevice →
      exec (.classUnknown pkt.bRequest pkt.classRequest) s = .next (armedState s p pkt.bRequest pkt.wLength))

/-- `GET_LINE_CODING` on P1 and P2, as SETUP and by its row: the seven bytes of `line_coding[p]` go to
`ctrl_buf[p][0..7)`, and on P2 the first `wLength` bytes of the buffer are sent; on P3 the row arms its data
stage. No register changes but the armed receive and, on P3, the pending command (R136, R124; the forms with
other than 7 bytes are decision D28, P1 is D29). -/
def Obligations.GetLineCodingSerialises : Prop :=
  ∀ (s : State) (r : ClassRequest) (p : Port), s.fatal = false → s.params.Valid → Routed s r.wIndex p →
    (∀ i ∈ [Instr.getLineCoding r, .setup (r.packet 0x21)],
      (r.wLength = 0 ∨ (r.wLength.toNat ≤ s.params.ctrlBufCap ∧ r.dir = .deviceToHost)) →
      ∃ t, exec i s = .next t ∧
        t.bytesAt .ctrlBuf p 0 7 = lineCodingBytes (s.port p).lineCoding ∧
        SameBytesOutside s t .ctrlBuf p 0 7 ∧ SameRegisters s t ∧ t.ctrlRxArmed = none ∧
        SameFlags s t ∧ SameEnv s t ∧ Raises s t [] ∧
        Emits s t (if r.wLength = 0 then [] else [.ctrlSend (t.bytesAt .ctrlBuf p 0 r.wLength.toNat)])) ∧
    (r.wLength ≠ 0 → r.wLength.toNat ≤ s.params.ctrlBufCap → r.dir = .hostToDevice →
      exec (.getLineCoding r) s = .next (armedState s p 0x21 r.wLength))

/-- `SET_LINE_CODING` on P1 and P2 with both answers yes, as SETUP and by its row: the line coding becomes the
first seven bytes of `ctrl_buf[p]` and channel `p` is reconfigured; on P2 `wLength` bytes of the buffer are then
sent; on P3 the row arms its data stage (R133, R126, R124, R125; that the path runs whatever the code, and so the
bytes sent on P2, is decision D28, P1 is D29, the sequence of the reconfiguration D49, the rest D14, D15). The
failing answers are ReconfigurationFailureHalts. -/
def Obligations.SetLineCodingReconfigures : Prop :=
  ∀ (s : State) (r : ClassRequest) (p : Port), s.fatal = false → s.params.Valid → Routed s r.wIndex p →
    (∀ i ∈ [Instr.setLineCoding r, .setup (r.packet 0x20)],
      s.draws.deinitOk.get p = true → s.draws.initOk.get p = true →
      (r.wLength = 0 ∨ (r.wLength.toNat ≤ s.params.ctrlBufCap ∧ r.dir = .deviceToHost)) →
      ∃ t, exec i s = .next t ∧
        lineCodingBytes (t.port p).lineCoding = s.bytesAt .ctrlBuf p 0 7 ∧
        t.port p = { s.port p with lineCoding := (t.port p).lineCoding } ∧
        t.chan p = { s.chan p with
          rxRemaining := s.params.ringCap, rxReadCursor := 0, dmaRunning := true,
          uartCfg := cfgOf (t.port p).lineCoding } ∧
        t.port p.other = s.port p.other ∧ t.chan p.other = s.chan p.other ∧ t.ctrlRxArmed = none ∧
        SameBytes s t ∧ SameFlags s t ∧ SameEnv s t ∧ Raises s t [] ∧
        Emits s t ([.uartDeinit p, .uartInit p (cfgOf (t.port p).lineCoding), .dmaStart p] ++
          if r.wLength = 0 then [] else [.ctrlSend (s.bytesAt .ctrlBuf p 0 r.wLength.toNat)])) ∧
    (r.wLength ≠ 0 → r.wLength.toNat ≤ s.params.ctrlBufCap → r.dir = .hostToDevice →
      exec (.setLineCoding r) s = .next (armedState s p 0x20 r.wLength))

/-- R133: all seven bytes of `ctrl_buf[p]`, verbatim, into `line_coding[p]`, then `Reconfigure(p)` in full; of the
rest of pair `p` only the ring registers and the framing can change, and nothing of the other pair. -/
def Obligations.LineCodingIsParsedThenReconfigured : Prop :=
  ∀ (s : State) (p : Port), 7 ≤ s.params.ctrlBufCap →
    ∃ lc : LineCoding, lineCodingBytes lc = s.bytesAt .ctrlBuf p 0 7 ∧
      setLineCodingOp p s =
        reconfigure p { s with ports := s.ports.modify p fun r => { r with lineCoding := lc } } ∧
      ∀ t, (setLineCodingOp p s = .run t ∨ setLineCodingOp p s = .ended t) →
        t.port p = { s.port p with lineCoding := lc } ∧
        t.chan p = { s.chan p with
          rxRemaining := (t.chan p).rxRemaining, rxReadCursor := (t.chan p).rxReadCursor,
          dmaRunning := (t.chan p).dmaRunning, uartCfg := (t.chan p).uartCfg } ∧
        SameBytes s t ∧ SamePair s t p.other

/-- R104: the seven bytes of a line coding, the baud rate little-endian, and their reading back. -/
def Obligations.LineCodingLayout : Prop :=
  ∀ b0 b1 b2 b3 b4 b5 b6 : Byte,
    let lc := lineCodingOfBytes b0 b1 b2 b3 b4 b5 b6
    lc.baudRate.toNat = b0.toNat + 256 * b1.toNat + 65536 * b2.toNat + 16777216 * b3.toNat ∧
    lc.stopCode = b4 ∧ lc.parityCode = b5 ∧ lc.dataBits = b6 ∧
    lineCodingBytes lc = [b0, b1, b2, b3, b4, b5, b6]

/-- `cfg_of` (R135; the fallbacks for what the UART cannot frame are decision D11). -/
def Obligations.FramingOfLineCoding : Prop :=
  ∀ lc : LineCoding,
    (cfgOf lc).baud = lc.baudRate ∧
    ((cfgOf lc).stop = .two ↔ lc.stopCode = 2) ∧
    ((cfgOf lc).parity = .odd ↔ lc.parityCode = 1) ∧ ((cfgOf lc).parity = .even ↔ lc.parityCode = 2) ∧
    ((cfgOf lc).wordLen = .seven ↔ lc.dataBits = 7) ∧ ((cfgOf lc).wordLen = .nine ↔ lc.dataBits = 9)

/-- `GET_INTERFACE` of a command interface: the one byte 0 (R129; that neither direction nor length is checked
is decision D30). -/
def Obligations.GetInterfaceAnswersZero : Prop :=
  ∀ (s : State) (pkt : SetupPacket) (p : Port), s.fatal = false → s.params.Valid → Routed s pkt.wIndex p →
    pkt.reqType = .standard → pkt.bRequest = 0x0A →
    ∀ i ∈ [Instr.setup pkt, .pathStdGetInterface pkt.dir pkt.recipient pkt.wValue pkt.wIndex pkt.wLength],
      exec i s = .next { s with ctrlRxArmed := none, out := s.out ++ [.ctrlSend [0x00]] }

/-- R130: after routing, a standard request other than `GET_INTERFACE`, a vendor and a reserved-type request
change no Port state and emit nothing. -/
def Obligations.OtherRequestsDoNothing : Prop :=
  ∀ (s : State) (pkt : SetupPacket) (p : Port), s.fatal = false → s.params.Valid → Routed s pkt.wIndex p →
    (pkt.reqType = .standard ∧ pkt.bRequest ≠ 0x0A ∨ pkt.reqType = .vendor ∨ pkt.reqType = .reserved) →
    ∀ i ∈ [Instr.setup pkt, .pathOther pkt], exec i s = .next { s with ctrlRxArmed := none }

/-- CTRL_DATA_COMPLETE for a pending `SET_LINE_CODING`, both answers yes: the payload is stored, the line coding
becomes the first seven bytes of the buffer, the paired channel is reconfigured, the command is done (R127,
R128, R133; routing is decision D26, the reconfiguration D49, D14, D15). -/
def Obligations.DataStageSetsLineCoding : Prop :=
  ∀ (s : State) (p : Port) (data : List Byte) (c : PendingCommand), s.fatal = false → s.params.Valid →
    s.ctrlRxArmed = some { port := p, length := data.length } → data.length ≤ s.params.ctrlBufCap →
    (s.port p).pendingCommand = some c → c.opcode = 0x20 →
    s.draws.deinitOk.get p = true → s.draws.initOk.get p = true →
    ∃ t, exec (.ctrlDataComplete data) s = .next t ∧
      t.bytesAt .ctrlBuf p 0 data.length = data ∧ SameBytesOutside s t .ctrlBuf p 0 data.length ∧
      lineCodingBytes (t.port p).lineCoding = t.bytesAt .ctrlBuf p 0 7 ∧
      t.port p = { s.port p with lineCoding := (t.port p).lineCoding, pendingCommand := none } ∧
      t.chan p = { s.chan p with
        rxRemaining := s.params.ringCap, rxReadCursor := 0, dmaRunning := true,
        uartCfg := cfgOf (t.port p).lineCoding } ∧
      t.port p.other = s.port p.other ∧ t.chan p.other = s.chan p.other ∧ t.ctrlRxArmed = none ∧
      SameFlags s t ∧ SameEnv s t ∧ Raises s t [] ∧
      Emits s t [.uartDeinit p, .uartInit p (cfgOf (t.port p).lineCoding), .dmaStart p]

/-- CTRL_DATA_COMPLETE for a pending command other than `SET_LINE_CODING`: the payload is stored (and, for
`GET_LINE_CODING`, the line coding written over its first seven bytes), the command is done, nothing is
emitted (R127, R128, R136, R138; routing is decision D26). -/
def Obligations.DataStageOfOtherRequests : Prop :=
  ∀ (s : State) (p : Port) (data : List Byte) (c : PendingCommand), s.fatal = false → s.params.Valid →
    s.ctrlRxArmed = some { port := p, length := data.length } → data.length ≤ s.params.ctrlBufCap →
    (s.port p).pendingCommand = some c → c.opcode ≠ 0x20 →
    ∃ t, exec (.ctrlDataComplete data) s = .next t ∧
      (c.opcode ≠ 0x21 →
        t.bytesAt .ctrlBuf p 0 data.length = data ∧ SameBytesOutside s t .ctrlBuf p 0 data.length) ∧
      (c.opcode = 0x21 →
        t.bytesAt .ctrlBuf p 0 7 = lineCodingBytes (s.port p).lineCoding ∧
        t.bytesAt .ctrlBuf p 7 (data.length - 7) = data.drop 7 ∧
        SameBytesOutside s t .ctrlBuf p 0 (max 7 data.length)) ∧
      t.ports = s.ports.modify p (fun r => { r with pendingCommand := none }) ∧ t.chans = s.chans ∧
      t.ctrlRxArmed = none ∧ SameFlags s t ∧ SameEnv s t ∧ Emits s t [] ∧ Raises s t []

/-- A failed deinit or init in the reconfiguration of a `SET_LINE_CODING`: the new line coding stands and the block
halts at the failing call. In a data stage the payload has been stored and the command stays pending; in a SETUP
on P1 or P2, as SETUP, by its class row and by its path row, nothing is sent after the halt (R134, R126, R124,
R128, R257; the halt is decision D35, the sequence D49, P1 D29, P2 D28). -/
def Obligations.ReconfigurationFailureHalts : Prop :=
  (∀ (s : State) (p : Port) (data : List Byte) (c : PendingCommand), s.fatal = false → s.params.Valid →
    s.ctrlRxArmed = some { port := p, length := data.length } → data.length ≤ s.params.ctrlBufCap →
    (s.port p).pendingCommand = some c → c.opcode = 0x20 →
    (s.draws.deinitOk.get p = false ∨ s.draws.initOk.get p = false) →
    ∃ t, exec (.ctrlDataComplete data) s = .next t ∧ HaltedReconfiguration s t p ∧
      lineCodingBytes (t.port p).lineCoding = t.bytesAt .ctrlBuf p 0 7 ∧
      t.bytesAt .ctrlBuf p 0 data.length = data ∧ SameBytesOutside s t .ctrlBuf p 0 data.length) ∧
  (∀ (s : State) (r : ClassRequest) (p : Port), s.fatal = false → s.params.Valid → Routed s r.wIndex p →
    (s.draws.deinitOk.get p = false ∨ s.draws.initOk.get p = false) →
    (r.wLength = 0 ∨ (r.wLength.toNat ≤ s.params.ctrlBufCap ∧ r.dir = .deviceToHost)) →
    ∀ i ∈ [Instr.setLineCoding r, .setup (r.packet 0x20), decodePath (r.packet 0x20)],
      ∃ t, exec i s = .next t ∧ HaltedReconfiguration s t p ∧
        lineCodingBytes (t.port p).lineCoding = s.bytesAt .ctrlBuf p 0 7 ∧ SameBytes s t)

/-- `GET_LINE_CODING` after `SET_LINE_CODING(x)` returns exactly `x` (R136, R141 (b)): after a data stage `x`
of seven bytes that did not halt the block, the request reads `x` back. -/
def Obligations.LineCodingRoundTrip : Prop :=
  ∀ (s t : State) (p : Port) (x : List Byte) (c : PendingCommand) (recipient : BitVec 5) (wValue wIndex : Half),
    s.params.Valid → s.ctrlRxArmed = some { port := p, length := 7 } → x.length = 7 →
    (s.port p).pendingCommand = some c → c.opcode = 0x20 →
    exec (.ctrlDataComplete x) s = .next t → t.fatal = false → Routed t wIndex p →
    ∃ u, exec (.setup ⟨.deviceToHost, .classType, recipient, 0x21, wValue, wIndex, 7⟩) t = .next u ∧
      Emits t u [.ctrlSend x]

/-- `SET_LINE_CODING` with the same parameters twice in a row (R141 (c)): after the second the line coding and the
framing are those after the first, and the channel has been reconfigured twice. -/
def Obligations.RepeatedSetLineCoding : Prop :=
  ∀ (s t u v : State) (p : Port) (x : List Byte) (c : PendingCommand) (recipient : BitVec 5)
    (wValue wIndex : Half),
    s.params.Valid → s.ctrlRxArmed = some { port := p, length := 7 } → x.length = 7 →
    (s.port p).pendingCommand = some c → c.opcode = 0x20 →
    exec (.ctrlDataComplete x) s = .next t → Routed t wIndex p →
    exec (.setup ⟨.hostToDevice, .classType, recipient, 0x20, wValue, wIndex, 7⟩) t = .next u →
    exec (.ctrlDataComplete x) u = .next v → v.fatal = false →
    (v.port p).lineCoding = (t.port p).lineCoding ∧ (v.chan p).uartCfg = (t.chan p).uartCfg ∧
    Emits s t [.uartDeinit p, .uartInit p (t.chan p).uartCfg, .dmaStart p] ∧
    Emits u v [.uartDeinit p, .uartInit p (t.chan p).uartCfg, .dmaStart p]

/-- An event concerns the pair it is routed to and no other (R141 (a), R232, R204): outside the lifecycle events
and SCHED_RUN, whose drains concern each its own pair, nothing of another pair changes. -/
def Obligations.PortsAreIsolated : Prop :=
  (∀ (i : Instr) (s t : State) (q : Port), lifecycle i = false → i ≠ .schedRun → subject s i ≠ some q →
    exec i s = .next t → SamePair s t q) ∧
  (∀ (s t : State) (p : Port), drain p s = .run t → SamePair s t p.other)

/-! ### Bulk data -/

/-- DATA_IN_COMPLETE on `EP_IN[p]` makes port `p` Idle and changes nothing else (R160, R161); any other endpoint,
and any endpoint while unconfigured, is ignored (decision D39). -/
def Obligations.DataInCompleteIdlesItsPort : Prop :=
  ∀ s : State, s.fatal = false → s.params.Valid →
    (∀ p, s.configured = true →
      exec (.dataInComplete (s.params.epIn.get p)) s =
        .next { s with ports := s.ports.modify p fun r => { r with txState := .idle } }) ∧
    (∀ ep, (s.configured = false ∨ ∀ p, ep ≠ s.params.epIn.get p) → exec (.dataInComplete ep) s = .next s)

/-- R26: `tx_state[p]` becomes Busy only by a drain that starts a transfer, and Idle only by DATA_IN_COMPLETE on
`EP_IN[p]` and by the lifecycle events, of which RESET, a successful CONFIGURE and a successful DECONFIGURE
leave it Idle. -/
def Obligations.TxStateChangesOnlyAsListed : Prop :=
  ∀ (i : Instr) (s t : State) (p : Port), s.params.Valid → exec i s = .next t →
    ((s.port p).txState = .idle → (t.port p).txState = .busy →
      i = .schedRun ∧ ∃ bytes, Action.usbTransmit (s.params.epIn.get p) bytes ∈ newActions s t) ∧
    ((s.port p).txState = .busy → (t.port p).txState = .idle →
      i = .dataInComplete (s.params.epIn.get p) ∨ lifecycle i = true) ∧
    (i = .dataInComplete (s.params.epIn.get p) → s.configured = true → (t.port p).txState = .idle) ∧
    (i = .reset → (t.port p).txState = .idle) ∧
    (i = .configure → s.configured = false → t.configured = true → (t.port p).txState = .idle) ∧
    (i = .deconfigure → s.configured = true → t.configured = false → (t.port p).txState = .idle)

/-- An OUT packet on an armed endpoint is stored from index 0, its length recorded, the endpoint left unarmed, and
the packet handed to the line (R163), which becomes busy unless the packet is empty and the open parameter
`ZLP_OUT_REARM` is false (R164; decision D22). -/
def Obligations.OutPacketIsStoredAndStarted : Prop :=
  ∀ (s : State) (p : Port) (data : List Byte), s.fatal = false → s.params.Valid → s.configured = true →
    (s.port p).outArmed = true → data.length ≤ s.params.maxPacket →
    ∃ t, exec (.dataOutComplete (s.params.epOut.get p) data) s = .next t ∧
      t.bytesAt .rxBuf p 0 data.length = data ∧ SameBytesOutside s t .rxBuf p 0 data.length ∧
      t.ports = s.ports.modify p (fun r => { r with rxLength := data.length, outArmed := false }) ∧
      t.chans = s.chans.modify p (fun r => { r with
        uartTxLen := data.length, uartTxPos := 0,
        uartTxBusy := if data ≠ [] ∨ s.params.zlpOutRearm = true then true else r.uartTxBusy }) ∧
      t.ctrlRxArmed = s.ctrlRxArmed ∧ SameFlags s t ∧ SameEnv s t ∧ Raises s t [] ∧
      Emits s t [.uartTxStart p data.length]

/-- Events that are not enabled are refused, each by its own name (R90, R127, R162, R165, R166, R194; U7, U8;
R102 (g)), and so is a class request with data longer than the control buffer (U5, decision D27). -/
def Obligations.DisabledEventsAreRefused : Prop :=
  ∀ s : State, s.fatal = false →
    (∀ (pkt : SetupPacket) (p : Port), s.params.Valid → Routed s pkt.wIndex p → pkt.reqType = .classType →
      s.params.ctrlBufCap < pkt.wLength.toNat →
      exec (.setup pkt) s = .refused .classRequestTooLong ∧
      exec (decodePath pkt) s = .refused .classRequestTooLong) ∧
    (∀ data, s.ctrlRxArmed = none → exec (.ctrlDataComplete data) s = .refused .ctrlDataNotArmed) ∧
    (∀ data a, s.ctrlRxArmed = some a → data.length ≠ a.length →
      exec (.ctrlDataComplete data) s = .refused .ctrlDataLength) ∧
    (∀ ep data, (s.configured = false ∨ ∀ p, ep ≠ s.params.epOut.get p) →
      exec (.dataOutComplete ep data) s = .refused .outNoEndpoint) ∧
    (∀ p data, s.params.Valid → s.configured = true → (s.port p).outArmed = false →
      exec (.dataOutComplete (s.params.epOut.get p) data) s = .refused .outNotArmed) ∧
    (∀ p data, s.params.Valid → s.configured = true → (s.port p).outArmed = true →
      s.params.maxPacket < data.length →
      exec (.dataOutComplete (s.params.epOut.get p) data) s = .refused .outTooLong) ∧
    (∀ c, (s.chan c).uartTxBusy = false →
      exec (.uartTxByte c) s = .refused .lineNotSending ∧
      exec (.uartTxComplete c) s = .refused .lineNotSending) ∧
    (∀ c, (s.chan c).uartTxBusy = true → (s.chan c).uartTxLen ≤ (s.chan c).uartTxPos →
      exec (.uartTxByte c) s = .refused .lineAllSent) ∧
    (∀ c, (s.chan c).uartTxBusy = true → (s.chan c).uartTxPos ≠ (s.chan c).uartTxLen →
      exec (.uartTxComplete c) s = .refused .lineBytesLeft) ∧
    (s.tickFlag = false → exec .schedRun s = .refused .noTick) ∧
    (∀ c kind, kind ≠ 0x01 → kind ≠ 0x02 → exec (.uartError c kind) s = .refused .unknownErrorKind)

/-- UART_TX_BYTE sends the byte at the position, in the framing in force, and advances the position (R165; one
event per byte is the spec's general knowledge G11). -/
def Obligations.LineByteIsSent : Prop :=
  ∀ (s : State) (c : Port), s.fatal = false → (s.chan c).uartTxBusy = true →
    (s.chan c).uartTxPos < (s.chan c).uartTxLen → (s.chan c).uartTxLen ≤ s.params.maxPacket →
    exec (.uartTxByte c) s = .next { s with
      chans := s.chans.modify c fun r => { r with uartTxPos := r.uartTxPos + 1 }
      out := s.out ++ [.lineByte c (s.byteAt .rxBuf c (s.chan c).uartTxPos) (s.chan c).uartCfg] }

/-- UART_TX_COMPLETE re-arms the OUT endpoint (R166; that only it does is decision D21). -/
def Obligations.LineCompletionRearms : Prop :=
  ∀ (s : State) (c : Port), s.fatal = false → (s.chan c).uartTxBusy = true →
    (s.chan c).uartTxPos = (s.chan c).uartTxLen →
    exec (.uartTxComplete c) s = .next { s with
      ports := s.ports.modify c fun r => { r with outArmed := true }
      chans := s.chans.modify c fun r => { r with uartTxBusy := false }
      out := s.out ++ [.armReceive (s.params.epOut.get c)] }

/-- A successful CONFIGURE arms each OUT endpoint once, port 0 then port 1, after both channels are initialised;
from then on arming is done only by UART_TX_COMPLETE (R224; the order and the place of the two actions are
decision D34, that nothing else re-arms is D21). -/
def Obligations.OutEndpointsAreArmedBy : Prop :=
  (∀ s t : State, exec .configure s = .next t → s.configured = false → t.configured = true →
    (∀ p, (t.port p).outArmed = true) ∧
    ∃ before, newActions s t = before ++
      [.dmaStart .p1, .armReceive (s.params.epOut.get .p0), .armReceive (s.params.epOut.get .p1),
        .configResult true] ∧ ∀ ep, Action.armReceive ep ∉ before) ∧
  (∀ (i : Instr) (s t : State) (p : Port), exec i s = .next t → (s.port p).outArmed = false →
    (t.port p).outArmed = true → i = .configure ∨ i = .uartTxComplete p) ∧
  (∀ (i : Instr) (s t : State) (ep : Byte), exec i s = .next t → Action.armReceive ep ∈ newActions s t →
    i = .configure ∨ ∃ c, i = .uartTxComplete c ∧ ep = s.params.epOut.get c)

/-- R167: the guard is the port's own `tx_state`; a Busy port's transmit raises `Busy` and changes nothing, an
Idle port's starts the transfer of `tx_buf[p][0..n)`. -/
def Obligations.TransmitGuardIsPerPort : Prop :=
  ∀ (s : State) (p : Port) (n : Nat), 1 ≤ n → n ≤ s.params.ringCap →
    ((s.port p).txState = .busy → transmit p n s = .run { s with raised := s.raised ++ [.busy p] }) ∧
    ((s.port p).txState = .idle → transmit p n s = .run { s with
      ports := s.ports.modify p fun r => { r with txLen := n, txState := .busy }
      out := s.out ++ [.usbTransmit (s.params.epIn.get p) (s.bytesAt .txBuf p 0 n)] })

/-- Busy-state mutual exclusion (R171, R293): while a transfer is in flight, every step but its completion and the
lifecycle events leaves the port Busy, its length and every byte of its Transmit Buffer, and starts no second
transfer on its endpoint. -/
def Obligations.BusyTransferIsExclusive : Prop :=
  ∀ (i : Instr) (s t : State) (p : Port), s.params.Valid → exec i s = .next t →
    (s.port p).txState = .busy → i ≠ .dataInComplete (s.params.epIn.get p) → lifecycle i = false →
    (t.port p).txState = .busy ∧ (t.port p).txLen = (s.port p).txLen ∧
    (∀ k, t.byteAt .txBuf p k = s.byteAt .txBuf p k) ∧
    ∀ bytes, Action.usbTransmit (s.params.epIn.get p) bytes ∉ newActions s t

/-- The host-to-line stream is exact (R169 (b)): from a state in which line `c` sends nothing, over any run
without a lifecycle event, what left on line `c`, followed by what is still to leave, is the concatenation of
the OUT packets that arrived on `EP_OUT[c]`. -/
def Obligations.OutStreamIsExact : Prop :=
  ∀ (events : List Event) (s t : State) (c : Port), s.params.Valid → (s.chan c).uartTxBusy = false →
    (∀ e ∈ events, lifecycle e.2 = false) → runEvents events s = some t →
    lineBytes c (newActions s t) ++ unsentBytes t c = packetBytes (s.params.epOut.get c) events

/-! ### Ring, tick and scheduler -/

/-- UART_RX_BYTE while the DMA engine runs: the byte at the write cursor, then the count, which reloads when it
would reach 0 (R190, R191; decision D13); while it is stopped the byte is discarded (R192; decision D40). -/
def Obligations.ReceivedByteIsStored : Prop :=
  ∀ (s : State) (c : Port) (b : Byte), s.fatal = false →
    ((s.chan c).dmaRunning = false → exec (.uartRxByte c b) s = .next s) ∧
    ((s.chan c).dmaRunning = true → 1 ≤ (s.chan c).rxRemaining →
      (s.chan c).rxRemaining ≤ s.params.ringCap →
      ∃ t, exec (.uartRxByte c b) s = .next t ∧
        t.byteAt .rxRing c (s.params.ringCap - (s.chan c).rxRemaining) = b ∧
        SameBytesOutside s t .rxRing c (s.params.ringCap - (s.chan c).rxRemaining) 1 ∧
        writeCursor s.params.ringCap (t.chan c).rxRemaining =
          (writeCursor s.params.ringCap (s.chan c).rxRemaining + 1) % s.params.ringCap ∧
        1 ≤ (t.chan c).rxRemaining ∧ (t.chan c).rxRemaining ≤ s.params.ringCap ∧
        t.chan c = { s.chan c with rxRemaining := (t.chan c).rxRemaining } ∧
        t.chan c.other = s.chan c.other ∧ t.ports = s.ports ∧ t.ctrlRxArmed = s.ctrlRxArmed ∧
        SameFlags s t ∧ SameEnv s t ∧ Emits s t [] ∧ Raises s t [])

/-- TIMER_TICK sets `tick_flag`, or leaves it set, and does nothing else (R193; that the timer runs while
unconfigured is decision D48). -/
def Obligations.TickSetsTheFlag : Prop :=
  ∀ s : State, s.fatal = false → exec .timerTick s = .next { s with tickFlag := true }

/-- SCHED_RUN while unconfigured only clears the flag (R194; decision D20). -/
def Obligations.SchedRunWithoutPorts : Prop :=
  ∀ s : State, s.fatal = false → s.tickFlag = true → s.configured = false →
    exec .schedRun s = .next { s with tickFlag := false }

/-- R196, R198, R199: the drain of one port. The count is the difference of the cursors modulo the capacity and
never the capacity; at 0 nothing changes; an Idle port's bytes, from the ring's effective addresses in order,
fill `tx_buf[p]` from 0, the read cursor becomes the write cursor sampled, and the transfer of exactly those
bytes starts. -/
def Obligations.DrainMovesUnreadBytes : Prop :=
  ∀ (s : State) (p : Port), 1 ≤ (s.chan p).rxRemaining → (s.chan p).rxRemaining ≤ s.params.ringCap →
    (s.chan p).rxReadCursor < s.params.ringCap →
    let w := s.params.ringCap - (s.chan p).rxRemaining
    let r := (s.chan p).rxReadCursor
    let n := unreadCount s p
    n < s.params.ringCap ∧ (r + n) % s.params.ringCap = w ∧
    (n = 0 → drain p s = .run s) ∧
    (n ≠ 0 → (s.port p).txState = .idle → ∃ t, drain p s = .run t ∧
      t.bytesAt .txBuf p 0 n = unreadBytes s p ∧ SameBytesOutside s t .txBuf p 0 n ∧
      t.ports = s.ports.modify p (fun x => { x with txLen := n, txState := .busy }) ∧
      t.chans = s.chans.modify p (fun x => { x with rxReadCursor := w }) ∧
      t.ctrlRxArmed = s.ctrlRxArmed ∧ SameFlags s t ∧ SameEnv s t ∧ Raises s t [] ∧
      Emits s t [.usbTransmit (s.params.epIn.get p) (unreadBytes s p)])

/-- R201, the source's worked example: capacity 256, read cursor 200, write cursor 50. -/
def Obligations.WrappedDrainExample : Prop :=
  ∀ (s : State) (p : Port), s.params.ringCap = 256 → (s.chan p).rxReadCursor = 200 →
    (s.chan p).rxRemaining = 206 → (s.port p).txState = .idle →
    unreadCount s p = 106 ∧
    ∃ t, drain p s = .run t ∧ (t.chan p).rxReadCursor = 50 ∧
      t.bytesAt .txBuf p 0 56 = s.bytesAt .rxRing p 200 56 ∧
      t.bytesAt .txBuf p 56 50 = s.bytesAt .rxRing p 0 50 ∧
      Emits s t [.usbTransmit (s.params.epIn.get p) (s.bytesAt .rxRing p 200 56 ++ s.bytesAt .rxRing p 0 50)]

/-- SCHED_RUN of a configured block: the flag is cleared and each port's unread bytes are sent if it is Idle and
dropped if it is Busy, the read cursor advanced in both cases; port 0's transfer is emitted first (R194, R195,
R197; the drop is decision D18, the order D17). -/
def Obligations.SchedRunDrainsBothPorts : Prop :=
  ∀ s : State, Invariant s → s.fatal = false → s.tickFlag = true → s.configured = true →
    ∃ t, exec .schedRun s = .next t ∧ t.tickFlag = false ∧
      t.configured = true ∧ t.fatal = false ∧ t.ctrlRxArmed = s.ctrlRxArmed ∧ SameEnv s t ∧
      (∀ p, t.chan p = { s.chan p with rxReadCursor := s.params.ringCap - (s.chan p).rxRemaining }) ∧
      (∀ p, (unreadCount s p = 0 ∨ (s.port p).txState = .busy) → t.port p = s.port p ∧
        ∀ b i, t.byteAt b p i = s.byteAt b p i) ∧
      (∀ p, unreadCount s p ≠ 0 → (s.port p).txState = .idle →
        t.port p = { s.port p with txLen := unreadCount s p, txState := .busy } ∧
        t.bytesAt .txBuf p 0 (unreadCount s p) = unreadBytes s p ∧
        ∀ b i, ¬(b = .txBuf ∧ i < unreadCount s p) → t.byteAt b p i = s.byteAt b p i) ∧
      (let sent (p : Port) : List Action :=
        if unreadCount s p ≠ 0 ∧ (s.port p).txState = .idle then
          [.usbTransmit (s.params.epIn.get p) (unreadBytes s p)] else []
       let dropped (p : Port) : List RaisedError :=
        if unreadCount s p ≠ 0 ∧ (s.port p).txState = .busy then [.busy p] else []
       Emits s t (sent .p0 ++ sent .p1) ∧ Raises s t (dropped .p0 ++ dropped .p1))

/-- R291, ring overrun: with `u` bytes unread, `k` more stores leave `(u + k) mod RING_CAP` unread, and they are
the newest; nothing is raised and nothing emitted. -/
def Obligations.OverrunKeepsNewestBytes : Prop :=
  ∀ (bytes : List Byte) (s t : State) (c : Port) (d : Draws), s.fatal = false → (s.chan c).dmaRunning = true →
    1 ≤ (s.chan c).rxRemaining → (s.chan c).rxRemaining ≤ s.params.ringCap →
    (s.chan c).rxReadCursor < s.params.ringCap →
    runEvents (bytes.map fun b => (d, Instr.uartRxByte c b)) s = some t →
    let total := unreadCount s c + bytes.length
    unreadCount t c = total % s.params.ringCap ∧
    unreadBytes t c = (unreadBytes s c ++ bytes).drop (total - total % s.params.ringCap) ∧
    (t.chan c).rxReadCursor = (s.chan c).rxReadCursor ∧ t.out = s.out ∧ t.raised = s.raised

/-- Ring-buffer drain correctness (R205): from a (re)arm of channel `p`, over a run that meets the conditions of
`LosslessRun`, the bytes transmitted on `EP_IN[p]` are a prefix of the bytes received on line `p`, and all of
them after a SCHED_RUN that no byte follows. -/
def Obligations.DrainReconstructsTheStream : Prop :=
  ∀ (events : List Event) (s t : State) (p : Port), s.params.Valid → s.fatal = false → s.configured = true →
    (s.chan p).dmaRunning = true → (s.chan p).rxRemaining = s.params.ringCap → (s.chan p).rxReadCursor = 0 →
    (∀ c, 1 ≤ (s.chan c).rxRemaining ∧ (s.chan c).rxRemaining ≤ s.params.ringCap ∧
      (s.chan c).rxReadCursor < s.params.ringCap) →
    LosslessRun p 0 events s → runEvents events s = some t →
    transmittedBytes (s.params.epIn.get p) (newActions s t) <+: receivedBytes p events ∧
    ∀ (before after : List Event) (d : Draws), events = before ++ (d, .schedRun) :: after →
      receivedBytes p after = [] →
      transmittedBytes (s.params.epIn.get p) (newActions s t) = receivedBytes p events

/-! ### Errors and flags -/

/-- UART_ERROR sets the sticky flag of its kind, raises the error and emits its diagnostic, configured or not, and
does nothing else (R256; decision D23). -/
def Obligations.LineErrorsAreFlagged : Prop :=
  ∀ (s : State) (c : Port), s.fatal = false →
    exec (.uartError c 0x01) s = .next { s with
      chans := s.chans.modify c fun r => { r with errOverrun := true }
      out := s.out ++ [.diag .uartOverrun (encodeChannel c)]
      raised := s.raised ++ [.uartOverrun c] } ∧
    exec (.uartError c 0x02) s = .next { s with
      chans := s.chans.modify c fun r => { r with errFraming := true }
      out := s.out ++ [.diag .uartFraming (encodeChannel c)]
      raised := s.raised ++ [.uartFraming c] }

/-- What sets and clears each flag of R41: `configured` only by a CONFIGURE that reports success, and cleared only by
DECONFIGURE and RESET; `tick_flag`; `fatal` only where a collaborator refused, as the step's last act;
`out_armed` cleared; `dma_running` set only by CONFIGURE and by a reconfiguration, each starting the DMA engine,
and cleared only by DECONFIGURE, RESET and a halt inside a reconfiguration; `uart_tx_busy`; the sticky error flags
(R41, R35, R38, R134, R254; decisions D14, D23, D35, D49). What sets `out_armed` is OutEndpointsAreArmedBy, what
changes `tx_state` TxStateChangesOnlyAsListed, what changes `pend_valid` ControlStateGraph. -/
def Obligations.FlagsChangeOnlyAsListed : Prop :=
  ∀ (i : Instr) (s t : State), exec i s = .next t →
    (s.configured = false → t.configured = true → i = .configure ∧ Action.configResult true ∈ newActions s t) ∧
    (s.configured = true → t.configured = false → i = .deconfigure ∨ i = .reset) ∧
    (s.tickFlag = false → t.tickFlag = true → i = .timerTick) ∧
    (s.tickFlag = true → t.tickFlag = false → i = .schedRun ∨ i = .reset) ∧
    (s.fatal = true → t.fatal = false → i = .reset) ∧
    (s.fatal = false → t.fatal = true →
      (∃ c, s.draws.initOk.get c = false ∨ s.draws.deinitOk.get c = false) ∧
      ∃ c before, t.out = s.out ++ before ++ [.fatal .peripheralInitFailure] ∧
        t.raised = s.raised ++ [.peripheralInitFailure c]) ∧
    (∀ p, (s.port p).outArmed = true → (t.port p).outArmed = false →
      (∃ data, i = .dataOutComplete (s.params.epOut.get p) data) ∨ lifecycle i = true) ∧
    (∀ c, (s.chan c).dmaRunning = false → (t.chan c).dmaRunning = true →
      (i = .configure ∨ Reconfigures s i c) ∧ Action.dmaStart c ∈ newActions s t) ∧
    (∀ c, (s.chan c).dmaRunning = true → (t.chan c).dmaRunning = false →
      i = .deconfigure ∨ i = .reset ∨ (Reconfigures s i c ∧ t.fatal = true)) ∧
    (∀ c, (s.chan c).uartTxBusy = false → (t.chan c).uartTxBusy = true →
      ∃ data, i = .dataOutComplete (s.params.epOut.get c) data) ∧
    (∀ c, (s.chan c).uartTxBusy = true → (t.chan c).uartTxBusy = false →
      i = .uartTxComplete c ∨ lifecycle i = true) ∧
    (∀ c, (s.chan c).errOverrun = false → (t.chan c).errOverrun = true → i = .uartError c 0x01) ∧
    (∀ c, (s.chan c).errFraming = false → (t.chan c).errFraming = true → i = .uartError c 0x02) ∧
    (∀ c, (s.chan c).errOverrun = true → (t.chan c).errOverrun = false → i = .reset) ∧
    (∀ c, (s.chan c).errFraming = true → (t.chan c).errFraming = false → i = .reset)

/-- The control-request machine has the transitions of R140 and no others. Port `p` begins to wait only by a SETUP
routed to it on path P3, and such a SETUP leaves it waiting for its own command; it stops waiting only by the
completion of a data stage armed for it or by a lifecycle event, and each of these leaves it Idle: the completion
unless it halts the block (R128, R257), CONFIGURE where it creates the ports, DECONFIGURE where it tears them down,
RESET always (decisions D26, D35). What the encoding does not admit (a P3 row with `wLength` 0) is on no path. -/
def Obligations.ControlStateGraph : Prop :=
  ∀ (i : Instr) (s t : State) (p : Port), exec i s = .next t →
    (ctrlState s p = .idle → ctrlState t p = .awaitingData →
      ∃ pkt, setupPacket i = some pkt ∧ (i.wf = true → OnPathOut pkt) ∧
        routeIface s (ifaceOf pkt.wIndex) = some p ∧
        t.ctrlRxArmed = some { port := p, length := pkt.wLength.toNat }) ∧
    (∀ pkt, i.wf = true → setupPacket i = some pkt → OnPathOut pkt →
      routeIface s (ifaceOf pkt.wIndex) = some p →
      ctrlState t p = .awaitingData ∧
        (t.port p).pendingCommand = some { opcode := pkt.bRequest, length := pkt.wLength }) ∧
    (ctrlState s p = .awaitingData → ctrlState t p = .idle →
      (∃ data n, i = .ctrlDataComplete data ∧ s.ctrlRxArmed = some { port := p, length := n }) ∨
      lifecycle i = true) ∧
    (∀ data n, i = .ctrlDataComplete data → s.ctrlRxArmed = some { port := p, length := n } → t.fatal = false →
      ctrlState t p = .idle) ∧
    (i = .reset → ctrlState t p = .idle) ∧
    (i = .configure → s.configured = false → s.draws.allocOk = true → ctrlState t p = .idle) ∧
    (i = .deconfigure → s.configured = true → t.fatal = false → ctrlState t p = .idle)

/-- Each buffer has the writers of R60 and no others, until RESET makes its contents unspecified: a byte of
`rx_ring[c]` changes only by UART_RX_BYTE(c), at the write cursor; of `tx_buf[p]` only by SCHED_RUN while port
`p` is Idle; of `rx_buf[p]` only by DATA_OUT_COMPLETE on `EP_OUT[p]`; of `ctrl_buf[p]` only by
CTRL_DATA_COMPLETE and SETUP. -/
def Obligations.BuffersHaveTheListedWriters : Prop :=
  ∀ (i : Instr) (s t : State) (p : Port) (k : Nat), exec i s = .next t → i ≠ .reset →
    (t.byteAt .rxRing p k ≠ s.byteAt .rxRing p k →
      k = writeCursor s.params.ringCap (s.chan p).rxRemaining ∧
      i = .uartRxByte p (t.byteAt .rxRing p k)) ∧
    (t.byteAt .txBuf p k ≠ s.byteAt .txBuf p k → i = .schedRun ∧ (s.port p).txState = .idle) ∧
    (t.byteAt .rxBuf p k ≠ s.byteAt .rxBuf p k →
      ∃ data, i = .dataOutComplete (s.params.epOut.get p) data ∧ k < data.length) ∧
    (t.byteAt .ctrlBuf p k ≠ s.byteAt .ctrlBuf p k →
      (∃ data, i = .ctrlDataComplete data) ∨ setupIndex i ≠ none)
end

