-- ==== Sys2Proof/Laws/State.lean ====
section
/-! SUPPORT. One lemma per field per update: the projections of every register write of Machine/Flags.lean,
of emit, raise and store, and of the two-element array. -/

namespace Sys2Proof

@[simp] theorem Two.get_both {α : Type} (a : α) (p : Port) : (Two.both a).get p = a := by cases p <;> rfl
@[simp] theorem Two.get_modify_same {α : Type} (t : Two α) (p : Port) (f : α → α) :
    (t.modify p f).get p = f (t.get p) := by cases p <;> rfl
theorem Two.get_modify {α : Type} (t : Two α) (p q : Port) (f : α → α) :
    (t.modify p f).get q = if q = p then f (t.get q) else t.get q := by cases p <;> cases q <;> rfl
@[simp] theorem Two.get_modify_ne {α : Type} (t : Two α) {p q : Port} (f : α → α) (h : q ≠ p) :
    (t.modify p f).get q = t.get q := by rw [Two.get_modify, if_neg h]
theorem Two.ext_get {α : Type} {t u : Two α} (h : ∀ p, t.get p = u.get p) : t = u := by
  have h0 := h .p0
  have h1 := h .p1
  cases t
  cases u
  simp_all [Two.get]
@[simp] theorem Port.other_ne (p : Port) : p.other ≠ p := by cases p <;> decide
@[simp] theorem Port.ne_other (p : Port) : p ≠ p.other := by cases p <;> decide
theorem Port.eq_other_of_ne {p q : Port} (h : q ≠ p) : q = p.other := by cases p <;> cases q <;> simp_all [Port.other]

namespace Machine

/-! ### Port and channel writes -/

@[simp] theorem State.modPort_port_same (s : State) (p : Port) (f : PortRegs → PortRegs) :
    (s.modPort p f).port p = f (s.port p) := Two.get_modify_same _ _ _
theorem State.modPort_port (s : State) (p q : Port) (f : PortRegs → PortRegs) :
    (s.modPort p f).port q = if q = p then f (s.port q) else s.port q := Two.get_modify _ _ _ _
@[simp] theorem State.modPort_port_ne (s : State) {p q : Port} (f : PortRegs → PortRegs) (h : q ≠ p) :
    (s.modPort p f).port q = s.port q := Two.get_modify_ne _ _ h
@[simp] theorem State.modPort_chan (s : State) (p q : Port) (f : PortRegs → PortRegs) :
    (s.modPort p f).chan q = s.chan q := rfl
@[simp] theorem State.modPort_chans (s : State) (p : Port) (f : PortRegs → PortRegs) :
    (s.modPort p f).chans = s.chans := rfl
@[simp] theorem State.modPort_bufs (s : State) (p : Port) (f : PortRegs → PortRegs) :
    (s.modPort p f).bufs = s.bufs := rfl
@[simp] theorem State.modPort_configured (s : State) (p : Port) (f : PortRegs → PortRegs) :
    (s.modPort p f).configured = s.configured := rfl
@[simp] theorem State.modPort_fatal (s : State) (p : Port) (f : PortRegs → PortRegs) :
    (s.modPort p f).fatal = s.fatal := rfl
@[simp] theorem State.modPort_tickFlag (s : State) (p : Port) (f : PortRegs → PortRegs) :
    (s.modPort p f).tickFlag = s.tickFlag := rfl
@[simp] theorem State.modPort_ctrlRxArmed (s : State) (p : Port) (f : PortRegs → PortRegs) :
    (s.modPort p f).ctrlRxArmed = s.ctrlRxArmed := rfl
@[simp] theorem State.modPort_params (s : State) (p : Port) (f : PortRegs → PortRegs) :
    (s.modPort p f).params = s.params := rfl
@[simp] theorem State.modPort_resets (s : State) (p : Port) (f : PortRegs → PortRegs) :
    (s.modPort p f).resets = s.resets := rfl
@[simp] theorem State.modPort_inbox (s : State) (p : Port) (f : PortRegs → PortRegs) :
    (s.modPort p f).inbox = s.inbox := rfl
@[simp] theorem State.modPort_draws (s : State) (p : Port) (f : PortRegs → PortRegs) :
    (s.modPort p f).draws = s.draws := rfl
@[simp] theorem State.modPort_out (s : State) (p : Port) (f : PortRegs → PortRegs) :
    (s.modPort p f).out = s.out := rfl
@[simp] theorem State.modPort_raised (s : State) (p : Port) (f : PortRegs → PortRegs) :
    (s.modPort p f).raised = s.raised := rfl

@[simp] theorem State.modChan_chan_same (s : State) (p : Port) (f : ChanRegs → ChanRegs) :
    (s.modChan p f).chan p = f (s.chan p) := Two.get_modify_same _ _ _
theorem State.modChan_chan (s : State) (p q : Port) (f : ChanRegs → ChanRegs) :
    (s.modChan p f).chan q = if q = p then f (s.chan q) else s.chan q := Two.get_modify _ _ _ _
@[simp] theorem State.modChan_chan_ne (s : State) {p q : Port} (f : ChanRegs → ChanRegs) (h : q ≠ p) :
    (s.modChan p f).chan q = s.chan q := Two.get_modify_ne _ _ h
@[simp] theorem State.modChan_port (s : State) (p q : Port) (f : ChanRegs → ChanRegs) :
    (s.modChan p f).port q = s.port q := rfl
@[simp] theorem State.modChan_ports (s : State) (p : Port) (f : ChanRegs → ChanRegs) :
    (s.modChan p f).ports = s.ports := rfl
@[simp] theorem State.modChan_bufs (s : State) (p : Port) (f : ChanRegs → ChanRegs) :
    (s.modChan p f).bufs = s.bufs := rfl
@[simp] theorem State.modChan_configured (s : State) (p : Port) (f : ChanRegs → ChanRegs) :
    (s.modChan p f).configured = s.configured := rfl
@[simp] theorem State.modChan_fatal (s : State) (p : Port) (f : ChanRegs → ChanRegs) :
    (s.modChan p f).fatal = s.fatal := rfl
@[simp] theorem State.modChan_tickFlag (s : State) (p : Port) (f : ChanRegs → ChanRegs) :
    (s.modChan p f).tickFlag = s.tickFlag := rfl
@[simp] theorem State.modChan_ctrlRxArmed (s : State) (p : Port) (f : ChanRegs → ChanRegs) :
    (s.modChan p f).ctrlRxArmed = s.ctrlRxArmed := rfl
@[simp] theorem State.modChan_params (s : State) (p : Port) (f : ChanRegs → ChanRegs) :
    (s.modChan p f).params = s.params := rfl
@[simp] theorem State.modChan_resets (s : State) (p : Port) (f : ChanRegs → ChanRegs) :
    (s.modChan p f).resets = s.resets := rfl
@[simp] theorem State.modChan_inbox (s : State) (p : Port) (f : ChanRegs → ChanRegs) :
    (s.modChan p f).inbox = s.inbox := rfl
@[simp] theorem State.modChan_draws (s : State) (p : Port) (f : ChanRegs → ChanRegs) :
    (s.modChan p f).draws = s.draws := rfl
@[simp] theorem State.modChan_out (s : State) (p : Port) (f : ChanRegs → ChanRegs) :
    (s.modChan p f).out = s.out := rfl
@[simp] theorem State.modChan_raised (s : State) (p : Port) (f : ChanRegs → ChanRegs) :
    (s.modChan p f).raised = s.raised := rfl

/-! ### emit -/

@[simp] theorem emit_configured (a : Action) (s : State) : (emit a s).configured = s.configured := rfl
@[simp] theorem emit_fatal (a : Action) (s : State) : (emit a s).fatal = s.fatal := rfl
@[simp] theorem emit_tickFlag (a : Action) (s : State) : (emit a s).tickFlag = s.tickFlag := rfl
@[simp] theorem emit_ctrlRxArmed (a : Action) (s : State) : (emit a s).ctrlRxArmed = s.ctrlRxArmed := rfl
@[simp] theorem emit_ports (a : Action) (s : State) : (emit a s).ports = s.ports := rfl
@[simp] theorem emit_chans (a : Action) (s : State) : (emit a s).chans = s.chans := rfl
@[simp] theorem emit_bufs (a : Action) (s : State) : (emit a s).bufs = s.bufs := rfl
@[simp] theorem emit_params (a : Action) (s : State) : (emit a s).params = s.params := rfl
@[simp] theorem emit_resets (a : Action) (s : State) : (emit a s).resets = s.resets := rfl
@[simp] theorem emit_inbox (a : Action) (s : State) : (emit a s).inbox = s.inbox := rfl
@[simp] theorem emit_draws (a : Action) (s : State) : (emit a s).draws = s.draws := rfl
@[simp] theorem emit_out (a : Action) (s : State) : (emit a s).out = s.out ++ [a] := rfl
@[simp] theorem emit_raised (a : Action) (s : State) : (emit a s).raised = s.raised := rfl
@[simp] theorem emit_port (a : Action) (s : State) (q : Port) : (emit a s).port q = s.port q := rfl
@[simp] theorem emit_chan (a : Action) (s : State) (q : Port) : (emit a s).chan q = s.chan q := rfl
@[simp] theorem emit_mem (a : Action) (s : State) (b' : Buffer) (q : Port) : (emit a s).mem b' q = s.mem b' q := rfl
@[simp] theorem emit_byteAt (a : Action) (s : State) (b' : Buffer) (q : Port) (i' : Nat) :
    (emit a s).byteAt b' q i' = s.byteAt b' q i' := rfl
@[simp] theorem emit_bytesAt (a : Action) (s : State) (b' : Buffer) (q : Port) (i' n' : Nat) :
    (emit a s).bytesAt b' q i' n' = s.bytesAt b' q i' n' := rfl

/-! ### raise -/

@[simp] theorem raise_configured (e : RaisedError) (s : State) : (raise e s).configured = s.configured := rfl
@[simp] theorem raise_fatal (e : RaisedError) (s : State) : (raise e s).fatal = s.fatal := rfl
@[simp] theorem raise_tickFlag (e : RaisedError) (s : State) : (raise e s).tickFlag = s.tickFlag := rfl
@[simp] theorem raise_ctrlRxArmed (e : RaisedError) (s : State) : (raise e s).ctrlRxArmed = s.ctrlRxArmed := rfl
@[simp] theorem raise_ports (e : RaisedError) (s : State) : (raise e s).ports = s.ports := rfl
@[simp] theorem raise_chans (e : RaisedError) (s : State) : (raise e s).chans = s.chans := rfl
@[simp] theorem raise_bufs (e : RaisedError) (s : State) : (raise e s).bufs = s.bufs := rfl
@[simp] theorem raise_params (e : RaisedError) (s : State) : (raise e s).params = s.params := rfl
@[simp] theorem raise_resets (e : RaisedError) (s : State) : (raise e s).resets = s.resets := rfl
@[simp] theorem raise_inbox (e : RaisedError) (s : State) : (raise e s).inbox = s.inbox := rfl
@[simp] theorem raise_draws (e : RaisedError) (s : State) : (raise e s).draws = s.draws := rfl
@[simp] theorem raise_out (e : RaisedError) (s : State) : (raise e s).out = s.out := rfl
@[simp] theorem raise_raised (e : RaisedError) (s : State) : (raise e s).raised = s.raised ++ [e] := rfl
@[simp] theorem raise_port (e : RaisedError) (s : State) (q : Port) : (raise e s).port q = s.port q := rfl
@[simp] theorem raise_chan (e : RaisedError) (s : State) (q : Port) : (raise e s).chan q = s.chan q := rfl
@[simp] theorem raise_mem (e : RaisedError) (s : State) (b' : Buffer) (q : Port) : (raise e s).mem b' q = s.mem b' q := rfl
@[simp] theorem raise_byteAt (e : RaisedError) (s : State) (b' : Buffer) (q : Port) (i' : Nat) :
    (raise e s).byteAt b' q i' = s.byteAt b' q i' := rfl
@[simp] theorem raise_bytesAt (e : RaisedError) (s : State) (b' : Buffer) (q : Port) (i' n' : Nat) :
    (raise e s).bytesAt b' q i' n' = s.bytesAt b' q i' n' := rfl

/-! ### setConfigured -/

@[simp] theorem setConfigured_configured (b : Bool) (s : State) : (setConfigured b s).configured = b := rfl
@[simp] theorem setConfigured_fatal (b : Bool) (s : State) : (setConfigured b s).fatal = s.fatal := rfl
@[simp] theorem setConfigured_tickFlag (b : Bool) (s : State) : (setConfigured b s).tickFlag = s.tickFlag := rfl
@[simp] theorem setConfigured_ctrlRxArmed (b : Bool) (s : State) : (setConfigured b s).ctrlRxArmed = s.ctrlRxArmed := rfl
@[simp] theorem setConfigured_ports (b : Bool) (s : State) : (setConfigured b s).ports = s.ports := rfl
@[simp] theorem setConfigured_chans (b : Bool) (s : State) : (setConfigured b s).chans = s.chans := rfl
@[simp] theorem setConfigured_bufs (b : Bool) (s : State) : (setConfigured b s).bufs = s.bufs := rfl
@[simp] theorem setConfigured_params (b : Bool) (s : State) : (setConfigured b s).params = s.params := rfl
@[simp] theorem setConfigured_resets (b : Bool) (s : State) : (setConfigured b s).resets = s.resets := rfl
@[simp] theorem setConfigured_inbox (b : Bool) (s : State) : (setConfigured b s).inbox = s.inbox := rfl
@[simp] theorem setConfigured_draws (b : Bool) (s : State) : (setConfigured b s).draws = s.draws := rfl
@[simp] theorem setConfigured_out (b : Bool) (s : State) : (setConfigured b s).out = s.out := rfl
@[simp] theorem setConfigured_raised (b : Bool) (s : State) : (setConfigured b s).raised = s.raised := rfl
@[simp] theorem setConfigured_port (b : Bool) (s : State) (q : Port) : (setConfigured b s).port q = s.port q := rfl
@[simp] theorem setConfigured_chan (b : Bool) (s : State) (q : Port) : (setConfigured b s).chan q = s.chan q := rfl
@[simp] theorem setConfigured_mem (b : Bool) (s : State) (b' : Buffer) (q : Port) : (setConfigured b s).mem b' q = s.mem b' q := rfl
@[simp] theorem setConfigured_byteAt (b : Bool) (s : State) (b' : Buffer) (q : Port) (i' : Nat) :
    (setConfigured b s).byteAt b' q i' = s.byteAt b' q i' := rfl
@[simp] theorem setConfigured_bytesAt (b : Bool) (s : State) (b' : Buffer) (q : Port) (i' n' : Nat) :
    (setConfigured b s).bytesAt b' q i' n' = s.bytesAt b' q i' n' := rfl

/-! ### setFatal -/

@[simp] theorem setFatal_configured (s : State) : (setFatal s).configured = s.configured := rfl
@[simp] theorem setFatal_fatal (s : State) : (setFatal s).fatal = true := rfl
@[simp] theorem setFatal_tickFlag (s : State) : (setFatal s).tickFlag = s.tickFlag := rfl
@[simp] theorem setFatal_ctrlRxArmed (s : State) : (setFatal s).ctrlRxArmed = s.ctrlRxArmed := rfl
@[simp] theorem setFatal_ports (s : State) : (setFatal s).ports = s.ports := rfl
@[simp] theorem setFatal_chans (s : State) : (setFatal s).chans = s.chans := rfl
@[simp] theorem setFatal_bufs (s : State) : (setFatal s).bufs = s.bufs := rfl
@[simp] theorem setFatal_params (s : State) : (setFatal s).params = s.params := rfl
@[simp] theorem setFatal_resets (s : State) : (setFatal s).resets = s.resets := rfl
@[simp] theorem setFatal_inbox (s : State) : (setFatal s).inbox = s.inbox := rfl
@[simp] theorem setFatal_draws (s : State) : (setFatal s).draws = s.draws := rfl
@[simp] theorem setFatal_out (s : State) : (setFatal s).out = s.out := rfl
@[simp] theorem setFatal_raised (s : State) : (setFatal s).raised = s.raised := rfl
@[simp] theorem setFatal_port (s : State) (q : Port) : (setFatal s).port q = s.port q := rfl
@[simp] theorem setFatal_chan (s : State) (q : Port) : (setFatal s).chan q = s.chan q := rfl
@[simp] theorem setFatal_mem (s : State) (b' : Buffer) (q : Port) : (setFatal s).mem b' q = s.mem b' q := rfl
@[simp] theorem setFatal_byteAt (s : State) (b' : Buffer) (q : Port) (i' : Nat) :
    (setFatal s).byteAt b' q i' = s.byteAt b' q i' := rfl
@[simp] theorem setFatal_bytesAt (s : State) (b' : Buffer) (q : Port) (i' n' : Nat) :
    (setFatal s).bytesAt b' q i' n' = s.bytesAt b' q i' n' := rfl

/-! ### setTick -/

@[simp] theorem setTick_configured (b : Bool) (s : State) : (setTick b s).configured = s.configured := rfl
@[simp] theorem setTick_fatal (b : Bool) (s : State) : (setTick b s).fatal = s.fatal := rfl
@[simp] theorem setTick_tickFlag (b : Bool) (s : State) : (setTick b s).tickFlag = b := rfl
@[simp] theorem setTick_ctrlRxArmed (b : Bool) (s : State) : (setTick b s).ctrlRxArmed = s.ctrlRxArmed := rfl
@[simp] theorem setTick_ports (b : Bool) (s : State) : (setTick b s).ports = s.ports := rfl
@[simp] theorem setTick_chans (b : Bool) (s : State) : (setTick b s).chans = s.chans := rfl
@[simp] theorem setTick_bufs (b : Bool) (s : State) : (setTick b s).bufs = s.bufs := rfl
@[simp] theorem setTick_params (b : Bool) (s : State) : (setTick b s).params = s.params := rfl
@[simp] theorem setTick_resets (b : Bool) (s : State) : (setTick b s).resets = s.resets := rfl
@[simp] theorem setTick_inbox (b : Bool) (s : State) : (setTick b s).inbox = s.inbox := rfl
@[simp] theorem setTick_draws (b : Bool) (s : State) : (setTick b s).draws = s.draws := rfl
@[simp] theorem setTick_out (b : Bool) (s : State) : (setTick b s).out = s.out := rfl
@[simp] theorem setTick_raised (b : Bool) (s : State) : (setTick b s).raised = s.raised := rfl
@[simp] theorem setTick_port (b : Bool) (s : State) (q : Port) : (setTick b s).port q = s.port q := rfl
@[simp] theorem setTick_chan (b : Bool) (s : State) (q : Port) : (setTick b s).chan q = s.chan q := rfl
@[simp] theorem setTick_mem (b : Bool) (s : State) (b' : Buffer) (q : Port) : (setTick b s).mem b' q = s.mem b' q := rfl
@[simp] theorem setTick_byteAt (b : Bool) (s : State) (b' : Buffer) (q : Port) (i' : Nat) :
    (setTick b s).byteAt b' q i' = s.byteAt b' q i' := rfl
@[simp] theorem setTick_bytesAt (b : Bool) (s : State) (b' : Buffer) (q : Port) (i' n' : Nat) :
    (setTick b s).bytesAt b' q i' n' = s.bytesAt b' q i' n' := rfl

/-! ### setCtrlRxArmed -/

@[simp] theorem setCtrlRxArmed_configured (a : Option ArmedReceive) (s : State) : (setCtrlRxArmed a s).configured = s.configured := rfl
@[simp] theorem setCtrlRxArmed_fatal (a : Option ArmedReceive) (s : State) : (setCtrlRxArmed a s).fatal = s.fatal := rfl
@[simp] theorem setCtrlRxArmed_tickFlag (a : Option ArmedReceive) (s : State) : (setCtrlRxArmed a s).tickFlag = s.tickFlag := rfl
@[simp] theorem setCtrlRxArmed_ctrlRxArmed (a : Option ArmedReceive) (s : State) : (setCtrlRxArmed a s).ctrlRxArmed = a := rfl
@[simp] theorem setCtrlRxArmed_ports (a : Option ArmedReceive) (s : State) : (setCtrlRxArmed a s).ports = s.ports := rfl
@[simp] theorem setCtrlRxArmed_chans (a : Option ArmedReceive) (s : State) : (setCtrlRxArmed a s).chans = s.chans := rfl
@[simp] theorem setCtrlRxArmed_bufs (a : Option ArmedReceive) (s : State) : (setCtrlRxArmed a s).bufs = s.bufs := rfl
@[simp] theorem setCtrlRxArmed_params (a : Option ArmedReceive) (s : State) : (setCtrlRxArmed a s).params = s.params := rfl
@[simp] theorem setCtrlRxArmed_resets (a : Option ArmedReceive) (s : State) : (setCtrlRxArmed a s).resets = s.resets := rfl
@[simp] theorem setCtrlRxArmed_inbox (a : Option ArmedReceive) (s : State) : (setCtrlRxArmed a s).inbox = s.inbox := rfl
@[simp] theorem setCtrlRxArmed_draws (a : Option ArmedReceive) (s : State) : (setCtrlRxArmed a s).draws = s.draws := rfl
@[simp] theorem setCtrlRxArmed_out (a : Option ArmedReceive) (s : State) : (setCtrlRxArmed a s).out = s.out := rfl
@[simp] theorem setCtrlRxArmed_raised (a : Option ArmedReceive) (s : State) : (setCtrlRxArmed a s).raised = s.raised := rfl
@[simp] theorem setCtrlRxArmed_port (a : Option ArmedReceive) (s : State) (q : Port) : (setCtrlRxArmed a s).port q = s.port q := rfl
@[simp] theorem setCtrlRxArmed_chan (a : Option ArmedReceive) (s : State) (q : Port) : (setCtrlRxArmed a s).chan q = s.chan q := rfl
@[simp] theorem setCtrlRxArmed_mem (a : Option ArmedReceive) (s : State) (b' : Buffer) (q : Port) : (setCtrlRxArmed a s).mem b' q = s.mem b' q := rfl
@[simp] theorem setCtrlRxArmed_byteAt (a : Option ArmedReceive) (s : State) (b' : Buffer) (q : Port) (i' : Nat) :
    (setCtrlRxArmed a s).byteAt b' q i' = s.byteAt b' q i' := rfl
@[simp] theorem setCtrlRxArmed_bytesAt (a : Option ArmedReceive) (s : State) (b' : Buffer) (q : Port) (i' n' : Nat) :
    (setCtrlRxArmed a s).bytesAt b' q i' n' = s.bytesAt b' q i' n' := rfl

/-! ### store -/

@[simp] theorem State.store_configured (s : State) (b : Buffer) (p : Port) (i : Nat) (vs : List Byte) : (s.store b p i vs).configured = s.configured := rfl
@[simp] theorem State.store_fatal (s : State) (b : Buffer) (p : Port) (i : Nat) (vs : List Byte) : (s.store b p i vs).fatal = s.fatal := rfl
@[simp] theorem State.store_tickFlag (s : State) (b : Buffer) (p : Port) (i : Nat) (vs : List Byte) : (s.store b p i vs).tickFlag = s.tickFlag := rfl
@[simp] theorem State.store_ctrlRxArmed (s : State) (b : Buffer) (p : Port) (i : Nat) (vs : List Byte) : (s.store b p i vs).ctrlRxArmed = s.ctrlRxArmed := rfl
@[simp] theorem State.store_ports (s : State) (b : Buffer) (p : Port) (i : Nat) (vs : List Byte) : (s.store b p i vs).ports = s.ports := rfl
@[simp] theorem State.store_chans (s : State) (b : Buffer) (p : Port) (i : Nat) (vs : List Byte) : (s.store b p i vs).chans = s.chans := rfl
@[simp] theorem State.store_params (s : State) (b : Buffer) (p : Port) (i : Nat) (vs : List Byte) : (s.store b p i vs).params = s.params := rfl
@[simp] theorem State.store_resets (s : State) (b : Buffer) (p : Port) (i : Nat) (vs : List Byte) : (s.store b p i vs).resets = s.resets := rfl
@[simp] theorem State.store_inbox (s : State) (b : Buffer) (p : Port) (i : Nat) (vs : List Byte) : (s.store b p i vs).inbox = s.inbox := rfl
@[simp] theorem State.store_draws (s : State) (b : Buffer) (p : Port) (i : Nat) (vs : List Byte) : (s.store b p i vs).draws = s.draws := rfl
@[simp] theorem State.store_out (s : State) (b : Buffer) (p : Port) (i : Nat) (vs : List Byte) : (s.store b p i vs).out = s.out := rfl
@[simp] theorem State.store_raised (s : State) (b : Buffer) (p : Port) (i : Nat) (vs : List Byte) : (s.store b p i vs).raised = s.raised := rfl
@[simp] theorem State.store_port (s : State) (b : Buffer) (p : Port) (i : Nat) (vs : List Byte) (q : Port) : (s.store b p i vs).port q = s.port q := rfl
@[simp] theorem State.store_chan (s : State) (b : Buffer) (p : Port) (i : Nat) (vs : List Byte) (q : Port) : (s.store b p i vs).chan q = s.chan q := rfl

@[simp] theorem State.modPort_mem (s : State) (p : Port) (f : PortRegs → PortRegs) (b : Buffer) (q : Port) :
    (s.modPort p f).mem b q = s.mem b q := rfl
@[simp] theorem State.modPort_byteAt (s : State) (p : Port) (f : PortRegs → PortRegs) (b : Buffer) (q : Port) (i : Nat) :
    (s.modPort p f).byteAt b q i = s.byteAt b q i := rfl
@[simp] theorem State.modPort_bytesAt (s : State) (p : Port) (f : PortRegs → PortRegs) (b : Buffer) (q : Port) (i n : Nat) :
    (s.modPort p f).bytesAt b q i n = s.bytesAt b q i n := rfl
@[simp] theorem State.modChan_mem (s : State) (p : Port) (f : ChanRegs → ChanRegs) (b : Buffer) (q : Port) :
    (s.modChan p f).mem b q = s.mem b q := rfl
@[simp] theorem State.modChan_byteAt (s : State) (p : Port) (f : ChanRegs → ChanRegs) (b : Buffer) (q : Port) (i : Nat) :
    (s.modChan p f).byteAt b q i = s.byteAt b q i := rfl
@[simp] theorem State.modChan_bytesAt (s : State) (p : Port) (f : ChanRegs → ChanRegs) (b : Buffer) (q : Port) (i n : Nat) :
    (s.modChan p f).bytesAt b q i n = s.bytesAt b q i n := rfl

/-! ### The named register writes, as writes to a port or a channel

With these and the lemmas above simp computes every field after a register write. -/

@[simp] theorem setLineCodingReg_eq (p : Port) (lc : LineCoding) (s : State) :
    setLineCodingReg p lc s = s.modPort p (fun r => { r with lineCoding := lc }) := rfl
@[simp] theorem setTxIdle_eq (p : Port) (s : State) :
    setTxIdle p s = s.modPort p (fun r => { r with txState := .idle }) := rfl
@[simp] theorem setTxBusy_eq (p : Port) (n : Nat) (s : State) :
    setTxBusy p n s = s.modPort p (fun r => { r with txLen := n, txState := .busy }) := rfl
@[simp] theorem setRxLength_eq (p : Port) (n : Nat) (s : State) :
    setRxLength p n s = s.modPort p (fun r => { r with rxLength := n }) := rfl
@[simp] theorem setOutArmed_eq (p : Port) (b : Bool) (s : State) :
    setOutArmed p b s = s.modPort p (fun r => { r with outArmed := b }) := rfl
@[simp] theorem setPending_eq (p : Port) (c : Option PendingCommand) (s : State) :
    setPending p c s = s.modPort p (fun r => { r with pendingCommand := c }) := rfl
@[simp] theorem setRxRemaining_eq (p : Port) (n : Nat) (s : State) :
    setRxRemaining p n s = s.modChan p (fun r => { r with rxRemaining := n }) := rfl
@[simp] theorem setReadCursor_eq (p : Port) (n : Nat) (s : State) :
    setReadCursor p n s = s.modChan p (fun r => { r with rxReadCursor := n }) := rfl
@[simp] theorem stopDma_eq (p : Port) (s : State) :
    stopDma p s = s.modChan p (fun r => { r with dmaRunning := false }) := rfl
@[simp] theorem rearm_eq (p : Port) (s : State) :
    rearm p s = s.modChan p (fun r => { r with rxRemaining := s.params.ringCap, rxReadCursor := 0, dmaRunning := true }) := rfl
@[simp] theorem setUartCfg_eq (p : Port) (cfg : UartCfg) (s : State) :
    setUartCfg p cfg s = s.modChan p (fun r => { r with uartCfg := cfg }) := rfl
@[simp] theorem setLineBusy_eq (p : Port) (b : Bool) (s : State) :
    setLineBusy p b s = s.modChan p (fun r => { r with uartTxBusy := b }) := rfl
@[simp] theorem startLine_eq (p : Port) (n : Nat) (s : State) :
    startLine p n s = s.modChan p (fun r => { r with uartTxLen := n, uartTxPos := 0 }) := rfl
@[simp] theorem setLinePos_eq (p : Port) (n : Nat) (s : State) :
    setLinePos p n s = s.modChan p (fun r => { r with uartTxPos := n }) := rfl
@[simp] theorem flagOverrun_eq (p : Port) (s : State) :
    flagOverrun p s = s.modChan p (fun r => { r with errOverrun := true }) := rfl
@[simp] theorem flagFraming_eq (p : Port) (s : State) :
    flagFraming p s = s.modChan p (fun r => { r with errFraming := true }) := rfl

end Machine

end Sys2Proof
end

