-- ==== Sys2Proof/Laws/Memory.lean ====
section
/-! SUPPORT. The laws of buffers: a read after a write, the canonical form kept by every memory operation, and
the one lemma that says what MemRead and MemWrite can do. -/

namespace Sys2Proof.Machine

/-! ### One byte -/

theorem Memory.read?_write (m : Memory) (i j : Nat) (v : Byte) :
    (m.write i v).read? j = if j = i then some v else m.read? j := by
  induction m with
  | nil => simp [Memory.write, Memory.read?]
  | cons x rest ih =>
    obtain ⟨a, w⟩ := x
    simp only [Memory.write]
    by_cases h1 : i < a
    · simp [h1, Memory.read?]
    · by_cases h2 : i = a
      · subst h2
        by_cases h3 : j = i <;> simp [Memory.read?, h3]
      · simp only [h1, h2, if_false, Memory.read?, ih]
        by_cases h3 : j = a
        · have : j ≠ i := by omega
          simp [h3, Ne.symm h2]
        · simp [h3]

@[simp] theorem Memory.read?_write_same (m : Memory) (i : Nat) (v : Byte) : (m.write i v).read? i = some v := by
  simp [Memory.read?_write]

theorem Memory.mem_write {m : Memory} {i : Nat} {v : Byte} {x : Host.Cell} (h : x ∈ m.write i v) :
    x = (i, v) ∨ x ∈ m := by
  induction m with
  | nil => exact .inl (by simpa [Memory.write] using h)
  | cons y rest ih =>
    obtain ⟨a, w⟩ := y
    simp only [Memory.write] at h
    by_cases h1 : i < a
    · simpa [h1] using h
    · by_cases h2 : i = a
      · simp only [h2, lt_irrefl, if_false, if_true, List.mem_cons] at h
        rcases h with h | h
        · exact .inl (by rw [h, h2])
        · exact .inr (List.mem_cons_of_mem _ h)
      · simp only [h1, h2, if_false, List.mem_cons] at h
        rcases h with h | h
        · exact .inr (by simp [h])
        · rcases ih h with h | h
          · exact .inl h
          · exact .inr (List.mem_cons_of_mem _ h)

theorem Memory.write_wf {m : Memory} (h : m.wf) (i : Nat) (v : Byte) : (m.write i v).wf := by
  induction m with
  | nil => simp [Memory.write, Memory.wf]
  | cons y rest ih =>
    obtain ⟨a, w⟩ := y
    obtain ⟨hlt, hrest⟩ := List.pairwise_cons.mp h
    simp only [Memory.write]
    by_cases h1 : i < a
    · simp only [h1, if_true]
      refine List.pairwise_cons.mpr ⟨fun x hx => ?_, h⟩
      rcases List.mem_cons.mp hx with rfl | hx
      · exact h1
      · exact h1.trans (hlt x hx)
    · by_cases h2 : i = a
      · subst h2
        simp only [lt_irrefl, if_false, if_true]
        exact List.pairwise_cons.mpr ⟨hlt, hrest⟩
      · simp only [h1, h2, if_false]
        refine List.pairwise_cons.mpr ⟨fun x hx => ?_, ih hrest⟩
        rcases Memory.mem_write hx with rfl | hx
        · simp only; omega
        · exact hlt x hx

theorem Memory.write_within {m : Memory} {cap : Nat} (h : m.within cap) {i : Nat} (hi : i < cap) (v : Byte) :
    (m.write i v).within cap := by
  intro x hx
  rcases Memory.mem_write hx with rfl | hx
  · exact hi
  · exact h x hx

/-! ### Runs of bytes -/

theorem Memory.read?_writeBytes (m : Memory) (i j : Nat) (vs : List Byte) :
    (m.writeBytes i vs).read? j = if i ≤ j ∧ j < i + vs.length then vs[j - i]? else m.read? j := by
  induction vs generalizing m i with
  | nil =>
    simp [Memory.writeBytes]
  | cons v vs ih =>
    simp only [Memory.writeBytes, ih, Memory.read?_write, List.length_cons]
    by_cases h : j = i
    · subst h
      simp
    · by_cases h2 : i + 1 ≤ j ∧ j < i + 1 + vs.length
      · have h3 : i ≤ j ∧ j < i + (vs.length + 1) := by omega
        have h4 : j - i = (j - (i + 1)) + 1 := by omega
        simp [h2, h3, h4]
      · have h3 : ¬(i ≤ j ∧ j < i + (vs.length + 1)) := by omega
        rw [if_neg h2, if_neg h3, if_neg h]

theorem Memory.writeBytes_wf {m : Memory} (h : m.wf) (i : Nat) (vs : List Byte) : (m.writeBytes i vs).wf := by
  induction vs generalizing m i with
  | nil => exact h
  | cons v vs ih => exact ih (Memory.write_wf h i v) (i + 1)

theorem Memory.writeBytes_within {m : Memory} {cap : Nat} (h : m.within cap) {i : Nat} {vs : List Byte}
    (hi : i + vs.length ≤ cap) : (m.writeBytes i vs).within cap := by
  induction vs generalizing m i with
  | nil => exact h
  | cons v vs ih =>
    simp only [List.length_cons] at hi
    exact ih (Memory.write_within h (by omega) v) (by omega)

/-! ### The state's buffers -/

theorem Buffers.get_put (x : Buffers) (b b' : Buffer) (m : Memory) :
    (x.put b m).get b' = if b' = b then m else x.get b' := by cases b <;> cases b' <;> rfl

theorem State.store_mem (s : State) (b b' : Buffer) (p q : Port) (i : Nat) (vs : List Byte) :
    (s.store b p i vs).mem b' q = if b' = b ∧ q = p then (s.mem b p).writeBytes i vs else s.mem b' q := by
  simp only [State.mem, State.store, Two.get_modify]
  by_cases hq : q = p
  · subst hq
    by_cases hb : b' = b
    · subst hb; simp [Buffers.get_put]
    · simp [Buffers.get_put, hb]
  · simp [hq]

/-- What a byte reads as after a store: a stored byte inside the run, the byte before elsewhere. -/
theorem State.store_byteAt (s : State) (b b' : Buffer) (p q : Port) (i j : Nat) (vs : List Byte) :
    (s.store b p i vs).byteAt b' q j =
      if h : (b' = b ∧ q = p) ∧ i ≤ j ∧ j < i + vs.length then vs[j - i]'(by omega) else s.byteAt b' q j := by
  simp only [State.byteAt, State.store_mem, State.store_resets]
  by_cases hb : b' = b ∧ q = p
  · obtain ⟨rfl, rfl⟩ := hb
    simp only [and_self, if_true, Memory.read?_writeBytes, true_and]
    by_cases hr : i ≤ j ∧ j < i + vs.length
    · have : j - i < vs.length := by omega
      simp [hr, List.getElem?_eq_getElem this]
    · simp [hr]
  · simp [hb]

@[simp] theorem State.bytesAt_length (s : State) (b : Buffer) (p : Port) (i n : Nat) :
    (s.bytesAt b p i n).length = n := by simp [State.bytesAt]

theorem State.bytesAt_getElem (s : State) (b : Buffer) (p : Port) (i n k : Nat) (h : k < n) :
    (s.bytesAt b p i n)[k]'(by simpa using h) = s.byteAt b p (i + k) := by simp [State.bytesAt]

theorem State.bytesAt_congr {s t : State} {b : Buffer} {p : Port} {i n : Nat}
    (h : ∀ k, k < n → t.byteAt b p (i + k) = s.byteAt b p (i + k)) : t.bytesAt b p i n = s.bytesAt b p i n := by
  simp only [State.bytesAt]
  exact List.map_congr_left fun k hk => h k (List.mem_range.mp hk)

theorem State.bytesAt_add (s : State) (b : Buffer) (p : Port) (i m n : Nat) :
    s.bytesAt b p i (m + n) = s.bytesAt b p i m ++ s.bytesAt b p (i + m) n := by
  simp [State.bytesAt, List.range_add, Nat.add_assoc]

/-- A read of exactly the run just stored gives the stored bytes. -/
theorem State.store_bytesAt_same (s : State) (b : Buffer) (p : Port) (i : Nat) (vs : List Byte) :
    (s.store b p i vs).bytesAt b p i vs.length = vs := by
  apply List.ext_getElem (by simp)
  intro k h1 h2
  rw [State.bytesAt_getElem _ _ _ _ _ _ h2, State.store_byteAt]
  have h2' : k < vs.length := h2
  simp [h2']

/-- A read that does not overlap the run just stored gives what it gave before. -/
theorem State.store_bytesAt_other (s : State) (b b' : Buffer) (p q : Port) (i j n : Nat) (vs : List Byte)
    (h : ¬(b' = b ∧ q = p) ∨ j + n ≤ i ∨ i + vs.length ≤ j) :
    (s.store b p i vs).bytesAt b' q j n = s.bytesAt b' q j n := by
  apply State.bytesAt_congr
  intro k hk
  rw [State.store_byteAt, dif_neg]
  rintro ⟨h1, h2, h3⟩
  rcases h with h | h | h
  · exact h h1
  · omega
  · omega

/-! ### MemRead and MemWrite -/

/-- Everything MemWrite can do. -/
theorem memWrite_run {b : Buffer} {p : Port} {i : Nat} {vs : List Byte} {s t : State} :
    memWrite b p i vs s = .run t ↔ i + vs.length ≤ s.params.capacity b ∧ t = s.store b p i vs := by
  unfold memWrite
  split <;> simp_all [eq_comm]

/-- MemWrite in range. -/
theorem memWrite_inRange {b : Buffer} {p : Port} {i : Nat} {vs : List Byte} {s : State}
    (h : i + vs.length ≤ s.params.capacity b) : memWrite b p i vs s = .run (s.store b p i vs) := if_pos h

/-- MemRead in range. -/
theorem memRead_inRange {b : Buffer} {p : Port} {i n : Nat} {s : State} {k : List Byte → Proc}
    (h : i + n ≤ s.params.capacity b) : memRead b p i n s k = k (s.bytesAt b p i n) := if_pos h

/-- MemRead out of range. -/
theorem memRead_outOfRange {b : Buffer} {p : Port} {i n : Nat} {s : State} {k : List Byte → Proc}
    (h : ¬i + n ≤ s.params.capacity b) : memRead b p i n s k = .fault (.bufferRange b p) := if_neg h

end Sys2Proof.Machine
end

