-- ==== Sys2Proof/Laws/Buffers.lean ====
section
/-! SUPPORT. The canonical form over the whole state: every buffer operation keeps it, and the machine after
reset has it. -/

namespace Sys2Proof.Machine

/-- A store inside a buffer's capacity keeps every buffer canonical. -/
theorem BuffersOk.store {s : State} (h : BuffersOk s) {b : Buffer} {p : Port} {i : Nat} {vs : List Byte}
    (hi : i + vs.length ≤ s.params.capacity b) : BuffersOk (s.store b p i vs) := by
  intro b' q
  rw [State.store_mem]
  by_cases hb : b' = b ∧ q = p
  · obtain ⟨rfl, rfl⟩ := hb
    simp only [and_self, if_true]
    exact ⟨Memory.writeBytes_wf (h _ _).1 _ _, Memory.writeBytes_within (h _ _).2 hi⟩
  · rw [if_neg hb]
    exact h b' q

/-- MemWrite keeps every buffer canonical. -/
theorem BuffersOk.memWrite {s t : State} (h : BuffersOk s) {b : Buffer} {p : Port} {i : Nat} {vs : List Byte}
    (hw : memWrite b p i vs s = .run t) : BuffersOk t := by
  obtain ⟨hi, rfl⟩ := memWrite_run.mp hw
  exact h.store hi

/-- A step that leaves the buffers and the parameters alone keeps them canonical. -/
theorem BuffersOk.of_same {s t : State} (h : BuffersOk s) (hb : t.bufs = s.bufs) (hp : t.params = s.params) :
    BuffersOk t := by
  intro b p
  have e : t.mem b p = s.mem b p := by simp only [State.mem, hb]
  rw [e, hp]
  exact h b p

/-- Buffers in which nothing has been written are canonical, whatever the capacities. -/
theorem BuffersOk.of_unwritten {s : State} (h : s.bufs = Two.both Buffers.unwritten) : BuffersOk s := by
  intro b p
  have e : s.mem b p = [] := by
    simp only [State.mem, h, Two.get_both]
    cases b <;> rfl
  rw [e]
  simp

/-- The machine after reset has canonical buffers. -/
theorem reset_buffersOk : BuffersOk State.reset := BuffersOk.of_unwritten rfl

/-- A store of no bytes changes nothing. -/
@[simp] theorem State.store_nil (s : State) (b : Buffer) (p : Port) (i : Nat) : s.store b p i [] = s := by
  cases s with
  | mk _ _ _ _ _ _ bufs =>
    obtain ⟨x0, x1⟩ := bufs
    cases p <;> cases b <;> rfl

end Sys2Proof.Machine
end

