-- ==== Sys2Proof/Laws/Decode.lean ====
section
/-! SUPPORT. The small laws of the byte order and of the setup packet's fields. -/

namespace Sys2Proof

theorem dirOfBit_bmRequestType (d : Dir) (t : ReqType) (x : BitVec 5) :
    dirOfBit ((d.bit ++ (t.bits ++ x)).getLsbD 7) = d := by
  cases d <;> cases t <;> revert x <;> decide

theorem reqTypeOfBits_bmRequestType (d : Dir) (t : ReqType) (x : BitVec 5) :
    reqTypeOfBits ((d.bit ++ (t.bits ++ x)).extractLsb' 5 2) = t := by
  cases d <;> cases t <;> revert x <;> decide

theorem recipient_bmRequestType (d : Dir) (t : ReqType) (x : BitVec 5) :
    (d.bit ++ (t.bits ++ x)).extractLsb' 0 5 = x := by
  cases d <;> cases t <;> revert x <;> decide

/-- The three fields of a request type, joined, are the byte. -/
theorem bmRequestType_fields (b : Byte) :
    (dirOfBit (b.getLsbD 7)).bit ++ ((reqTypeOfBits (b.extractLsb' 5 2)).bits ++ b.extractLsb' 0 5) = b := by
  revert b; decide

theorem le16_byteOf (v : Half) : le16 (byteOf v 0) (byteOf v 1) = v := by
  apply BitVec.eq_of_toNat_eq
  simp only [le16, byteOf, BitVec.toNat_append, BitVec.extractLsb'_toNat, Nat.shiftRight_eq_div_pow, Nat.mul_zero,
    pow_zero, Nat.div_one, Nat.mul_one, Nat.shiftLeft_eq]
  rw [Nat.mul_comm, ← Nat.two_pow_add_eq_or_of_lt (Nat.mod_lt _ (by decide))]
  have := v.isLt
  omega

theorem byteOf_le16_zero (a b : Byte) : byteOf (le16 a b) 0 = a := by
  apply BitVec.eq_of_toNat_eq
  simp only [le16, byteOf, BitVec.toNat_append, BitVec.extractLsb'_toNat, Nat.shiftRight_eq_div_pow, Nat.mul_zero,
    pow_zero, Nat.div_one, Nat.shiftLeft_eq]
  rw [Nat.mul_comm, ← Nat.two_pow_add_eq_or_of_lt a.isLt]
  have := a.isLt
  omega

theorem byteOf_le16_one (a b : Byte) : byteOf (le16 a b) 1 = b := by
  apply BitVec.eq_of_toNat_eq
  simp only [le16, byteOf, BitVec.toNat_append, BitVec.extractLsb'_toNat, Nat.shiftRight_eq_div_pow, Nat.mul_one,
    Nat.shiftLeft_eq]
  rw [Nat.mul_comm, ← Nat.two_pow_add_eq_or_of_lt a.isLt]
  have := a.isLt
  have := b.isLt
  omega

/-- The packet of a packet's bytes is the packet. -/
theorem packetOfList_bytes (p : SetupPacket) : packetOfList p.bytes = some p := by
  cases p
  simp only [SetupPacket.bytes, SetupPacket.bmRequestType, packetOfList, packetOfBytes, dirOfBit_bmRequestType,
    reqTypeOfBits_bmRequestType, recipient_bmRequestType, le16_byteOf]

/-- The bytes of the packet of a list are the list. -/
theorem bytes_packetOfList {l : List Byte} {p : SetupPacket} (h : packetOfList l = some p) : p.bytes = l := by
  unfold packetOfList at h
  split at h
  · obtain rfl := Option.some.inj h
    simp only [SetupPacket.bytes, SetupPacket.bmRequestType, packetOfBytes, bmRequestType_fields,
      byteOf_le16_zero, byteOf_le16_one]
  · cases h

end Sys2Proof
end

