-- ==== Sys2Proof/Laws/Ops.lean ====
section
/-! SUPPORT. One lemma for each shared operation, saying once everything it can do: sequencing, routing, the
fatal halt, the reconfiguration, the control handler, the paths, the bulk and ring operations, the lifecycle
operations, and the fetch. -/

namespace Sys2Proof.Machine

/-! ### Sequencing -/

@[simp] theorem Proc.andThen_of_run (s : State) (k : State → Proc) : (Proc.run s).andThen k = k s := rfl
@[simp] theorem Proc.andThen_of_ended (s : State) (k : State → Proc) : (Proc.ended s).andThen k = .ended s := rfl
@[simp] theorem Proc.andThen_of_fault (f : Fault) (k : State → Proc) : (Proc.fault f).andThen k = .fault f := rfl
@[simp] theorem Proc.andThen_of_refused (r : Refusal) (k : State → Proc) :
    (Proc.refused r).andThen k = .refused r := rfl
@[simp] theorem Proc.outcome_of_run (s : State) : (Proc.run s).outcome = .next s := rfl
@[simp] theorem Proc.outcome_of_ended (s : State) : (Proc.ended s).outcome = .next s := rfl
@[simp] theorem Proc.outcome_of_fault (f : Fault) : (Proc.fault f).outcome = .fault f := rfl
@[simp] theorem Proc.outcome_of_refused (r : Refusal) : (Proc.refused r).outcome = .refused r := rfl

theorem Proc.andThen_eq_run {m : Proc} {k : State → Proc} {t : State} :
    m.andThen k = .run t ↔ ∃ u, m = .run u ∧ k u = .run t := by cases m <;> simp

theorem Proc.andThen_eq_ended {m : Proc} {k : State → Proc} {t : State} :
    m.andThen k = .ended t ↔ m = .ended t ∨ ∃ u, m = .run u ∧ k u = .ended t := by cases m <;> simp

theorem Proc.andThen_eq_fault {m : Proc} {k : State → Proc} {f : Fault} :
    m.andThen k = .fault f ↔ m = .fault f ∨ ∃ u, m = .run u ∧ k u = .fault f := by cases m <;> simp

theorem Proc.outcome_eq_next {m : Proc} {t : State} : m.outcome = .next t ↔ m = .run t ∨ m = .ended t := by
  cases m <;> simp

theorem Proc.outcome_eq_fault {m : Proc} {f : Fault} : m.outcome = .fault f ↔ m = .fault f := by
  cases m <;> simp

theorem Proc.outcome_eq_refused {m : Proc} {r : Refusal} : m.outcome = .refused r ↔ m = .refused r := by
  cases m <;> simp

@[simp] theorem whenAlive_alive {s : State} {m : Proc} (h : s.fatal = false) : whenAlive s m = m := by
  simp [whenAlive, h]

@[simp] theorem whenAlive_halted {s : State} {m : Proc} (h : s.fatal = true) :
    whenAlive s m = .refused .halted := by simp [whenAlive, h]

/-! ### Routing -/

/-- Routing over an array whose two entries differ finds exactly the port whose entry the byte is. -/
theorem portWith_eq_some {xs : Two Byte} (hne : xs.at0 ≠ xs.at1) {b : Byte} {p : Port} :
    portWith xs b = some p ↔ b = xs.get p := by
  unfold portWith
  by_cases h0 : b = xs.get .p0
  · rw [if_pos h0]
    cases p
    · simp [h0]
    · simp only [Option.some.injEq, reduceCtorEq, false_iff]
      exact fun h1 => hne (h0.symm.trans h1)
  · rw [if_neg h0]
    by_cases h1 : b = xs.get .p1
    · rw [if_pos h1]
      cases p
      · simpa using h0
      · simp [h1]
    · rw [if_neg h1]
      cases p
      · simpa using h0
      · simpa using h1

theorem portWith_eq_none {xs : Two Byte} {b : Byte} : portWith xs b = none ↔ ∀ p, b ≠ xs.get p := by
  unfold portWith
  by_cases h0 : b = xs.get .p0
  · rw [if_pos h0]
    simp only [reduceCtorEq, false_iff, not_forall, not_not]
    exact ⟨.p0, h0⟩
  · rw [if_neg h0]
    by_cases h1 : b = xs.get .p1
    · rw [if_pos h1]
      simp only [reduceCtorEq, false_iff, not_forall, not_not]
      exact ⟨.p1, h1⟩
    · rw [if_neg h1]
      simp only [true_iff]
      rintro (_ | _) <;> assumption

/-- The parameters' distinctness in the form routing needs. -/
theorem params_distinct {p : Params} (h : p.Valid) :
    p.cmdIf.at0 ≠ p.cmdIf.at1 ∧ p.epIn.at0 ≠ p.epIn.at1 ∧ p.epOut.at0 ≠ p.epOut.at1 := by
  obtain ⟨-, -, h3, h4⟩ := h
  simp only [List.nodup_cons, List.mem_cons, not_or] at h3 h4
  exact ⟨h4.1.1, h3.1.1, h3.2.2.1.1⟩

theorem routeIface_eq_some {s : State} (hv : s.params.Valid) {iface : Byte} {p : Port} :
    routeIface s iface = some p ↔ s.configured = true ∧ iface = s.params.cmdIf.get p := by
  unfold routeIface
  split <;> simp_all [portWith_eq_some (params_distinct hv).1]

theorem routeIface_eq_none {s : State} {iface : Byte} :
    routeIface s iface = none ↔ s.configured = false ∨ ∀ p, iface ≠ s.params.cmdIf.get p := by
  unfold routeIface
  split <;> simp_all [portWith_eq_none]

theorem routeIn_eq_some {s : State} (hv : s.params.Valid) {ep : Byte} {p : Port} :
    routeIn s ep = some p ↔ s.configured = true ∧ ep = s.params.epIn.get p := by
  unfold routeIn
  split <;> simp_all [portWith_eq_some (params_distinct hv).2.1]

theorem routeIn_eq_none {s : State} {ep : Byte} :
    routeIn s ep = none ↔ s.configured = false ∨ ∀ p, ep ≠ s.params.epIn.get p := by
  unfold routeIn
  split <;> simp_all [portWith_eq_none]

theorem routeOut_eq_some {s : State} (hv : s.params.Valid) {ep : Byte} {p : Port} :
    routeOut s ep = some p ↔ s.configured = true ∧ ep = s.params.epOut.get p := by
  unfold routeOut
  split <;> simp_all [portWith_eq_some (params_distinct hv).2.2]

theorem routeOut_eq_none {s : State} {ep : Byte} :
    routeOut s ep = none ↔ s.configured = false ∨ ∀ p, ep ≠ s.params.epOut.get p := by
  unfold routeOut
  split <;> simp_all [portWith_eq_none]

/-! ### The fatal halt, the reset and the reconfiguration -/

/-- The state FatalHalt leaves (R257). -/
def haltedState (c : Port) (s : State) : State :=
  { s with
    fatal := true
    out := s.out ++ [.fatal .peripheralInitFailure]
    raised := s.raised ++ [.peripheralInitFailure c] }

theorem fatalHalt_eq (c : Port) (s : State) : fatalHalt c s = .ended (haltedState c s) := rfl

/-- The state `Reconfigure(c)` leaves when both answers are yes (R134). -/
def reconfiguredState (c : Port) (s : State) : State :=
  { s with
    chans := s.chans.modify c fun r =>
      { r with rxRemaining := s.params.ringCap, rxReadCursor := 0, dmaRunning := true,
               uartCfg := cfgOf (s.port c).lineCoding }
    out := s.out ++ [.uartDeinit c, .uartInit c (cfgOf (s.port c).lineCoding), .dmaStart c] }

/-- Everything `Reconfigure(c)` can do. -/
theorem reconfigure_eq (c : Port) (s : State) :
    reconfigure c s =
      if s.draws.deinitOk.get c then
        if s.draws.initOk.get c then .run (reconfiguredState c s)
        else .ended (haltedState c { s with
          chans := s.chans.modify c fun r =>
            { r with dmaRunning := false, uartCfg := cfgOf (s.port c).lineCoding }
          out := s.out ++ [.uartDeinit c, .uartInit c (cfgOf (s.port c).lineCoding)] })
      else .ended (haltedState c { s with
        chans := s.chans.modify c fun r => { r with dmaRunning := false }
        out := s.out ++ [.uartDeinit c] }) := by
  unfold reconfigure
  cases c <;> simp only [fatalHalt_eq, haltedState, reconfiguredState] <;> split <;> (try split) <;>
    simp [State.modChan, emit, Two.modify, State.chan, State.port, Two.get]

/-! ### The control handler and the paths -/

theorem control_set (p : Port) (s : State) : control p 0x20 s = setLineCodingOp p s := rfl
theorem control_get (p : Port) (s : State) : control p 0x21 s = getLineCodingOp p s := rfl

/-- Every other request code has no effect (R137, R138). -/
theorem control_other (p : Port) {opcode : Byte} (h1 : opcode ≠ 0x20) (h2 : opcode ≠ 0x21) (s : State) :
    control p opcode s = .run s := by
  have h1' : opcode.toNat ≠ 0x20 := fun h => h1 (BitVec.eq_of_toNat_eq (by simpa using h))
  have h2' : opcode.toNat ≠ 0x21 := fun h => h2 (BitVec.eq_of_toNat_eq (by simpa using h))
  unfold control noEffectOp
  split <;> simp_all

/-- `SetLineCoding(p)` with a control buffer that holds the payload. -/
theorem setLineCodingOp_eq {p : Port} {s : State} (h : 7 ≤ s.params.ctrlBufCap) :
    setLineCodingOp p s =
      reconfigure p (setLineCodingReg p (lineCodingOfList (s.bytesAt .ctrlBuf p 0 7)) s) :=
  memRead_inRange (by simpa [Params.capacity] using h)

@[simp] theorem lineCodingBytes_length (lc : LineCoding) : (lineCodingBytes lc).length = 7 := rfl

/-- `GET_LINE_CODING` with a control buffer that holds the payload. -/
theorem getLineCodingOp_eq {p : Port} {s : State} (h : 7 ≤ s.params.ctrlBufCap) :
    getLineCodingOp p s = .run (s.store .ctrlBuf p 0 (lineCodingBytes (s.port p).lineCoding)) :=
  memWrite_inRange (by simpa [Params.capacity] using h)

/-- A SETUP step while the block is alive and the request is routed to `p`. -/
theorem setupStep_routed {s : State} {wIndex : Half} {p : Port} {body : Port → State → Proc}
    (hf : s.fatal = false) (hv : s.params.Valid) (hr : Routed s wIndex p) :
    setupStep wIndex s body = body p (setCtrlRxArmed none s) := by
  have : routeIface (setCtrlRxArmed none s) (ifaceOf wIndex) = some p :=
    (routeIface_eq_some (s := setCtrlRxArmed none s) hv).mpr hr
  simp [setupStep, hf, this]

/-- A SETUP step whose request no port takes. -/
theorem setupStep_unroutable {s : State} {wIndex : Half} {body : Port → State → Proc}
    (hf : s.fatal = false) (hr : Unroutable s wIndex) :
    setupStep wIndex s body = .ended { s with
      ctrlRxArmed := none
      out := s.out ++ [.diag .unroutableRequest (ifaceOf wIndex)]
      raised := s.raised ++ [.unroutableRequest (ifaceOf wIndex)] } := by
  have : routeIface (setCtrlRxArmed none s) (ifaceOf wIndex) = none :=
    (routeIface_eq_none (s := setCtrlRxArmed none s)).mpr hr
  simp only [setupStep, whenAlive_alive hf, this]
  rfl

/-- Everything P3 can do. -/
theorem classOut_eq (p : Port) (opcode : Byte) (wLength : Half) (s : State) :
    classOut p opcode wLength s =
      if wLength.toNat ≤ s.params.ctrlBufCap then
        .run { s with
          ctrlRxArmed := some { port := p, length := wLength.toNat }
          ports := s.ports.modify p fun r => { r with pendingCommand := some { opcode := opcode, length := wLength } }
          out := s.out ++ [.ctrlReceive p wLength.toNat] }
      else .refused .classRequestTooLong := rfl

/-- P2 with a handler that returns. -/
theorem classIn_eq {p : Port} {handler : State → Proc} {length : Nat} {s t : State}
    (hl : length ≤ s.params.ctrlBufCap) (hh : handler s = .run t) (ht : t.params = s.params) :
    classIn p handler length s = .run (emit (.ctrlSend (t.bytesAt .ctrlBuf p 0 length)) t) := by
  have : 0 + length ≤ t.params.capacity .ctrlBuf := by simpa [Params.capacity, ht] using hl
  simp [classIn, hl, hh, memRead_inRange this]

/-- ProcessPending with a command. -/
theorem processPending_some {p : Port} {s : State} {c : PendingCommand}
    (h : (s.port p).pendingCommand = some c) :
    processPending p s = (control p c.opcode s).andThen fun t => .run (setPending p none t) := by
  simp [processPending, h]

/-! ### Bulk and ring operations -/

/-- Everything `Transmit(p, n)` can do in range (R167). -/
theorem transmit_eq {p : Port} {n : Nat} {s : State} (h : n ≤ s.params.ringCap) :
    transmit p n s =
      match (s.port p).txState with
      | .busy => .run { s with raised := s.raised ++ [.busy p] }
      | .idle => .run { s with
          ports := s.ports.modify p fun r => { r with txLen := n, txState := .busy }
          out := s.out ++ [.usbTransmit (s.params.epIn.get p) (s.bytesAt .txBuf p 0 n)] } := by
  have : 0 + n ≤ s.params.capacity .txBuf := by simpa [Params.capacity] using h
  unfold transmit
  cases (s.port p).txState
  · exact memRead_inRange this
  · rfl

/-- Everything `Receive(c, n)` can do (R164). -/
theorem receive_eq (c : Port) (n : Nat) (s : State) :
    receive c n s = .run { s with
      chans := s.chans.modify c fun r =>
        { r with uartTxLen := n, uartTxPos := 0,
                 uartTxBusy := if 0 < n ∨ s.params.zlpOutRearm = true then true else r.uartTxBusy }
      out := s.out ++ [.uartTxStart c n] } := by
  unfold receive
  cases c <;> split <;> simp_all [emit, State.modChan, Two.modify]

/-- `DmaStore(c, b)` with the count in range (R191). -/
theorem dmaStore_eq {c : Port} {b : Byte} {s : State}
    (h : 1 ≤ (s.chan c).rxRemaining ∧ (s.chan c).rxRemaining ≤ s.params.ringCap) :
    dmaStore c b s =
      .run (setRxRemaining c
        (if (s.chan c).rxRemaining = 1 then s.params.ringCap else (s.chan c).rxRemaining - 1)
        (s.store .rxRing c (writeCursor s.params.ringCap (s.chan c).rxRemaining) [b])) := by
  have : writeCursor s.params.ringCap (s.chan c).rxRemaining + [b].length ≤ s.params.capacity .rxRing := by
    simp only [writeCursor, Params.capacity, List.length_cons, List.length_nil]
    omega
  simp only [dmaStore, h, and_self, if_true, memWrite_inRange this, Proc.andThen_of_run]

/-- The unread count by cases, in the form that needs no negative numbers (R200 (b)). -/
theorem bytesAvailable_eq {cap w r : Nat} (hw : w < cap) (hr : r < cap) :
    bytesAvailable cap w r = if r ≤ w then w - r else w + cap - r := by
  unfold bytesAvailable
  split
  · rw [Int.emod_eq_of_lt (by omega) (by omega)]
    omega
  · rw [← Int.add_emod_right, Int.emod_eq_of_lt (by omega) (by omega)]
    omega

theorem bytesAvailable_lt {cap w r : Nat} (hw : w < cap) (hr : r < cap) : bytesAvailable cap w r < cap := by
  rw [bytesAvailable_eq hw hr]
  split <;> omega

/-- Two stores that meet are one store. -/
theorem Memory.writeBytes_append (m : Memory) (i : Nat) (xs ys : List Byte) :
    m.writeBytes i (xs ++ ys) = (m.writeBytes i xs).writeBytes (i + xs.length) ys := by
  induction xs generalizing m i with
  | nil => rfl
  | cons x xs ih =>
    simp only [List.cons_append, Memory.writeBytes, ih, List.length_cons]
    congr 1
    omega

theorem State.store_append (s : State) (b : Buffer) (p : Port) (i : Nat) (xs ys : List Byte) :
    s.store b p i (xs ++ ys) = (s.store b p i xs).store b p (i + xs.length) ys := by
  unfold State.store
  simp only [Memory.writeBytes_append]
  congr 1
  cases p <;> cases b <;> rfl

/-- The wrapped copy is one copy of the bytes at the effective addresses of R198. -/
theorem copyOut_eq {p : Port} {s : State} {w r : Nat} (hw : w < s.params.ringCap) (hr : r < s.params.ringCap) :
    copyOut p w r s = .run (s.store .txBuf p 0
      ((List.range (bytesAvailable s.params.ringCap w r)).map
        fun k => s.byteAt .rxRing p ((r + k) % s.params.ringCap))) := by
  have hn := bytesAvailable_eq hw hr
  unfold copyOut
  by_cases h : w < r
  · have h1 : r + (s.params.ringCap - r) ≤ s.params.capacity .rxRing := by simp only [Params.capacity]; omega
    have h2 : 0 + w ≤ s.params.capacity .rxRing := by simp only [Params.capacity]; omega
    have h3 : 0 + (s.bytesAt .rxRing p r (s.params.ringCap - r)).length ≤ s.params.capacity .txBuf := by
      simp only [Params.capacity, State.bytesAt_length]; omega
    have h4 : s.params.ringCap - r + (s.bytesAt .rxRing p 0 w).length ≤ s.params.capacity .txBuf := by
      simp only [Params.capacity, State.bytesAt_length]; omega
    rw [if_pos h, memRead_inRange h1, memRead_inRange h2, memWrite_inRange h3, Proc.andThen_of_run,
      memWrite_inRange (by simpa using h4)]
    have hsplit : bytesAvailable s.params.ringCap w r = (s.params.ringCap - r) + w := by
      rw [hn, if_neg (by omega)]
      omega
    have hb : (List.range (bytesAvailable s.params.ringCap w r)).map
          (fun k => s.byteAt .rxRing p ((r + k) % s.params.ringCap)) =
        s.bytesAt .rxRing p r (s.params.ringCap - r) ++ s.bytesAt .rxRing p 0 w := by
      rw [hsplit, List.range_add, List.map_append, List.map_map]
      congr 1
      · apply List.map_congr_left
        intro k hk
        have := List.mem_range.mp hk
        rw [Nat.mod_eq_of_lt (by omega)]
      · apply List.map_congr_left
        intro k hk
        have := List.mem_range.mp hk
        have e : r + (s.params.ringCap - r + k) = k + s.params.ringCap := by omega
        simp only [Function.comp_apply, e, Nat.add_mod_right, Nat.zero_add]
        rw [Nat.mod_eq_of_lt (by omega)]
    rw [hb, State.store_append]
    simp
  · have h1 : r + (w - r) ≤ s.params.capacity .rxRing := by simp only [Params.capacity]; omega
    have h2 : 0 + (s.bytesAt .rxRing p r (w - r)).length ≤ s.params.capacity .txBuf := by
      simp only [Params.capacity, State.bytesAt_length]; omega
    rw [if_neg h, memRead_inRange h1, memWrite_inRange h2]
    have hb : (List.range (bytesAvailable s.params.ringCap w r)).map
          (fun k => s.byteAt .rxRing p ((r + k) % s.params.ringCap)) = s.bytesAt .rxRing p r (w - r) := by
      rw [hn, if_pos (by omega)]
      apply List.map_congr_left
      intro k hk
      have := List.mem_range.mp hk
      rw [Nat.mod_eq_of_lt (by omega)]
    rw [hb]

/-- Everything `Drain(p)` can do with the ring registers in range (R195). -/
theorem drain_eq {p : Port} {s : State}
    (h1 : 1 ≤ (s.chan p).rxRemaining) (h2 : (s.chan p).rxRemaining ≤ s.params.ringCap)
    (h3 : (s.chan p).rxReadCursor < s.params.ringCap) :
    drain p s =
      if unreadCount s p = 0 then .run s
      else
        match (s.port p).txState with
        | .busy => .run { s with
            chans := s.chans.modify p fun r =>
              { r with rxReadCursor := writeCursor s.params.ringCap (s.chan p).rxRemaining }
            raised := s.raised ++ [.busy p] }
        | .idle => .run { s.store .txBuf p 0 (unreadBytes s p) with
            chans := s.chans.modify p fun r =>
              { r with rxReadCursor := writeCursor s.params.ringCap (s.chan p).rxRemaining }
            ports := s.ports.modify p fun r => { r with txLen := unreadCount s p, txState := .busy }
            out := s.out ++ [.usbTransmit (s.params.epIn.get p) (unreadBytes s p)] } := by
  have hw : writeCursor s.params.ringCap (s.chan p).rxRemaining < s.params.ringCap := by
    simp only [writeCursor]; omega
  have hn : unreadCount s p < s.params.ringCap := bytesAvailable_lt hw h3
  unfold drain
  simp only [h1, h2, h3, and_self, if_true]
  change (if unreadCount s p = 0 then _ else _) = _
  split
  · rfl
  · cases hb : (s.port p).txState with
    | busy => rfl
    | idle =>
      simp only [copyOut_eq hw h3, Proc.andThen_of_run]
      have hl : unreadCount s p = (unreadBytes s p).length := by simp [unreadBytes]
      change transmit p (unreadCount s p) (setReadCursor p _ (s.store .txBuf p 0 (unreadBytes s p))) = _
      rw [transmit_eq (by simpa using hn.le)]
      simp only [setReadCursor_eq, State.modChan_port, State.store_port, hb, State.modChan_bytesAt,
        State.modChan_params, State.store_params]
      rw [hl, State.store_bytesAt_same]
      rfl

/-! ### Lifecycle operations -/

/-- The six actions of `OpenAll()` (R223). -/
def openActions (p : Params) : List Action := [
  .openEndpoint p.epIn.at0 .bulk p.maxPacket, .openEndpoint p.epOut.at0 .bulk p.maxPacket,
  .openEndpoint p.epCmd.at0 .interrupt 64, .openEndpoint p.epIn.at1 .bulk p.maxPacket,
  .openEndpoint p.epOut.at1 .bulk p.maxPacket, .openEndpoint p.epCmd.at1 .interrupt 64]

theorem openAll_eq (s : State) : openAll s = { s with out := s.out ++ openActions s.params } := by
  simp [openAll, openPort, emit, openActions, Two.get, Params.intrMaxPacket]

/-- The six actions by which DECONFIGURE closes the endpoints (R227). -/
def closeActions (p : Params) : List Action := [
  .closeEndpoint p.epIn.at0, .closeEndpoint p.epOut.at0, .closeEndpoint p.epCmd.at0,
  .closeEndpoint p.epIn.at1, .closeEndpoint p.epOut.at1, .closeEndpoint p.epCmd.at1]

theorem closePorts_eq (s : State) :
    closePort .p1 (closePort .p0 s) = { s with out := s.out ++ closeActions s.params } := by
  simp [closePort, emit, closeActions, Two.get]

/-- Everything `ChannelInit(c)` can do (R225). -/
theorem channelInit_eq (c : Port) (s : State) :
    channelInit c s =
      if s.draws.initOk.get c then
        .run { s with
          chans := s.chans.modify c fun r =>
            { r with uartTxBusy := false, uartTxLen := 0, uartTxPos := 0,
                     uartCfg := cfgOf (s.port c).lineCoding, rxRemaining := s.params.ringCap,
                     rxReadCursor := 0, dmaRunning := true }
          out := s.out ++ [.uartInit c (cfgOf (s.port c).lineCoding), .dmaStart c] }
      else .ended (haltedState c { s with
        chans := s.chans.modify c fun r =>
          { r with uartTxBusy := false, uartTxLen := 0, uartTxPos := 0, uartCfg := cfgOf (s.port c).lineCoding }
        out := s.out ++ [.uartInit c (cfgOf (s.port c).lineCoding)] }) := by
  unfold channelInit
  cases c <;> simp only [fatalHalt_eq, haltedState] <;> split <;>
    simp [State.modChan, emit, Two.modify, State.chan, State.port, Two.get]

/-- Everything the `deinit` of a channel can do (R227). -/
theorem channelDeinit_eq (c : Port) (s : State) :
    channelDeinit c s =
      let stopped : State := { s with
        chans := s.chans.modify c fun r => { r with dmaRunning := false }
        out := s.out ++ [.uartDeinit c] }
      if s.draws.deinitOk.get c then .run stopped else .ended (haltedState c stopped) := by
  unfold channelDeinit
  cases c <;> simp only [fatalHalt_eq, haltedState] <;> split <;> simp [State.modChan, emit, Two.modify]

/-! ### The fetch -/

theorem fetch_nil {s : State} (h : s.inbox = []) : fetch s = none := by simp [fetch, h]

theorem fetch_cons {s : State} {d : Delivery} {rest : List Delivery} (h : s.inbox = d :: rest) :
    fetch s = some (d.record, { s with inbox := rest, draws := d.draws }) := by simp [fetch, h]

/-- A delivered event is what the next step takes, in the state before its delivery. -/
theorem fetch_deliver (s : State) (r : Record) : fetch (s.deliver r) = some (r, s) := rfl

end Sys2Proof.Machine
end

