-- ==== Sys2Proof/Laws/PerInstr.lean ====
section
/-! SUPPORT. Statements made per instruction: the encoding of an instruction has the mask and match bits of its
row of spec/opcode_table.json. -/

namespace Sys2Proof.Laws

/-- The word a row's mask and match apply to: the kind byte of an EVENT record (R92), the setup word of the two
SETUP formats (R98). -/
def rowWord (r : Record) : Nat :=
  match r.format with
  | .event => wordOfBytes (r.bytes.take 1)
  | .setupPath => wordOfBytes r.bytes
  | .setupClass => wordOfBytes r.bytes

/-- Some row of the table has the instruction's mnemonic, and its encoding has that row's format and fixed
bits. -/
def TableRow.Statement (i : Instr) : Prop :=
  ∃ row ∈ eventRows ++ pathRows ++ classRows,
    row.mnemonic = i.mnemonic ∧ row.format = (encode i).format ∧ row.hits (rowWord (encode i)) = true

/-! ### The fixed bits of a setup word -/

/-- A mask below `2^k` sees only the low `k` bits. -/
theorem land_low {w m k : Nat} (hm : m < 2 ^ k) : Nat.land w m = Nat.land (w % 2 ^ k) m := by
  change w &&& m = (w % 2 ^ k) &&& m
  have h1 : w &&& m < 2 ^ k := Nat.and_lt_two_pow w hm
  rw [← Nat.mod_eq_of_lt h1, Nat.and_mod_two_pow, Nat.mod_eq_of_lt hm]

/-- The low 16 bits of a packet's word are its request type and request code. -/
theorem word_low (p : SetupPacket) : p.word % 2 ^ 16 = p.bmRequestType.toNat + 256 * p.bRequest.toNat := by
  have h0 := p.bmRequestType.isLt
  have h1 := p.bRequest.isLt
  simp only [SetupPacket.word, SetupPacket.bytes, wordOfBytes]
  omega

/-- The low 8 bits of a packet's word are its request type. -/
theorem word_low8 (p : SetupPacket) : p.word % 2 ^ 8 = p.bmRequestType.toNat := by
  have h0 := p.bmRequestType.isLt
  simp only [SetupPacket.word, SetupPacket.bytes, wordOfBytes]
  omega

/-- The word of a class request, seen through the mask of the SETUP_CLASS rows. -/
theorem class_word (r : ClassRequest) (b : Byte) :
    Nat.land (r.packet b).word 0xFF60 =
      Nat.land ((r.dir.bit ++ ((1 : BitVec 2) ++ r.recipient)).toNat + 256 * b.toNat) 0xFF60 := by
  rw [land_low (k := 16) (by decide), word_low]
  rfl

/-- The type bits of a class packet, for every direction and recipient, beside each named request code. -/
theorem class_bits : ∀ code ∈ [0x00, 0x01, 0x02, 0x03, 0x04, 0x20, 0x21, 0x22, 0x23], ∀ (d : Dir) (x : BitVec 5),
    Nat.land ((d.bit ++ ((1 : BitVec 2) ++ x)).toNat + 256 * code) 0xFF60 = 0x20 + 256 * code := by
  intro code h d
  cases d <;> revert code <;> decide

/-- A named class request hits its row. -/
theorem class_hits (r : ClassRequest) (b : Byte)
    (h : b.toNat ∈ [0x00, 0x01, 0x02, 0x03, 0x04, 0x20, 0x21, 0x22, 0x23]) :
    Nat.land (rowWord (classRecord b r)) 0xFF60 = 0x20 + 256 * b.toNat :=
  (class_word r b).trans (class_bits _ h r.dir r.recipient)

/-- A packet's word through a mask over its request type only. -/
theorem word_mask8 (p : SetupPacket) {m : Nat} (h : m < 2 ^ 8) :
    Nat.land p.word m = Nat.land p.bmRequestType.toNat m := by
  rw [land_low h, word_low8]

/-- The type bits of a class packet. -/
theorem class_type : ∀ (d : Dir) (x : BitVec 5), Nat.land (d.bit ++ ((1 : BitVec 2) ++ x)).toNat 0x60 = 0x20 := by
  intro d; cases d <;> decide

/-- The direction and type bits of a class packet. -/
theorem class_in : ∀ x : BitVec 5, Nat.land (Dir.deviceToHost.bit ++ ((1 : BitVec 2) ++ x)).toNat 0xE0 = 0xA0 := by
  decide

/-- The direction and type bits of a class packet. -/
theorem class_out : ∀ x : BitVec 5, Nat.land (Dir.hostToDevice.bit ++ ((1 : BitVec 2) ++ x)).toNat 0xE0 = 0x20 := by
  decide

/-- The type bits and the request code of GET_INTERFACE. -/
theorem get_interface_bits : ∀ (d : Dir) (x : BitVec 5),
    Nat.land ((d.bit ++ ((0 : BitVec 2) ++ x)).toNat + 256 * 0x0A) 0xFF60 = 0xA00 := by
  intro d; cases d <;> decide

/-- A packet whose `wLength` is 0 fits in 48 bits. -/
theorem word_nodata (p : SetupPacket) (h : p.wLength = 0) : p.word < 2 ^ 48 := by
  have e0 : byteOf p.wLength 0 = 0 := by rw [h]; rfl
  have e1 : byteOf p.wLength 1 = 0 := by rw [h]; rfl
  simp only [SetupPacket.word, SetupPacket.bytes, wordOfBytes, e0, e1]
  have := p.bmRequestType.isLt
  have := p.bRequest.isLt
  have := (byteOf p.wValue 0).isLt
  have := (byteOf p.wValue 1).isLt
  have := (byteOf p.wIndex 0).isLt
  have := (byteOf p.wIndex 1).isLt
  simp only [show (0 : Byte).toNat = 0 from rfl]
  omega

/-- A mask's bits above a word's width are not seen. -/
theorem land_high {w m k : Nat} (hw : w < 2 ^ k) : Nat.land w m = Nat.land w (m % 2 ^ k) := by
  change w &&& m = w &&& (m % 2 ^ k)
  rw [Nat.and_comm, Nat.and_comm w]
  exact land_low hw

/-- An EVENT record hits the row of its kind byte. -/
theorem event_hits (name : String) (kind : Byte) (payload : List Byte) :
    TableRow.hits ⟨name, .event, kind.toNat, 0xFF⟩ (rowWord (eventRecord (kind :: payload))) = true := by
  have h : rowWord (eventRecord (kind :: payload)) = kind.toNat := by simp [rowWord, eventRecord, wordOfBytes]
  have e : Nat.land kind.toNat 0xFF = kind.toNat := by
    change kind.toNat &&& (2 ^ 8 - 1) = _
    rw [Nat.and_two_pow_sub_one_eq_mod, Nat.mod_eq_of_lt kind.isLt]
  rw [h]
  exact beq_iff_eq.mpr e

/-! ### One lemma per instruction -/

theorem TableRow.reset : TableRow.Statement (.reset) :=
  ⟨⟨"RESET", .event, 0x00, 0xFF⟩, by decide, rfl, rfl, event_hits _ 0x00 _⟩

theorem TableRow.configure : TableRow.Statement (.configure) :=
  ⟨⟨"CONFIGURE", .event, 0x01, 0xFF⟩, by decide, rfl, rfl, event_hits _ 0x01 _⟩

theorem TableRow.deconfigure : TableRow.Statement (.deconfigure) :=
  ⟨⟨"DECONFIGURE", .event, 0x02, 0xFF⟩, by decide, rfl, rfl, event_hits _ 0x02 _⟩

theorem TableRow.setup (pkt : SetupPacket) : TableRow.Statement (.setup pkt) :=
  ⟨⟨"SETUP", .event, 0x03, 0xFF⟩, by decide, rfl, rfl, event_hits _ 0x03 _⟩

theorem TableRow.ctrlDataComplete (data : List Byte) : TableRow.Statement (.ctrlDataComplete data) :=
  ⟨⟨"CTRL_DATA_COMPLETE", .event, 0x04, 0xFF⟩, by decide, rfl, rfl, event_hits _ 0x04 _⟩

theorem TableRow.dataInComplete (ep : Byte) : TableRow.Statement (.dataInComplete ep) :=
  ⟨⟨"DATA_IN_COMPLETE", .event, 0x05, 0xFF⟩, by decide, rfl, rfl, event_hits _ 0x05 _⟩

theorem TableRow.dataOutComplete (ep : Byte) (data : List Byte) : TableRow.Statement (.dataOutComplete ep data) :=
  ⟨⟨"DATA_OUT_COMPLETE", .event, 0x06, 0xFF⟩, by decide, rfl, rfl, event_hits _ 0x06 _⟩

theorem TableRow.uartRxByte (c : Port) (b : Byte) : TableRow.Statement (.uartRxByte c b) :=
  ⟨⟨"UART_RX_BYTE", .event, 0x07, 0xFF⟩, by decide, rfl, rfl, event_hits _ 0x07 _⟩

theorem TableRow.uartTxByte (c : Port) : TableRow.Statement (.uartTxByte c) :=
  ⟨⟨"UART_TX_BYTE", .event, 0x08, 0xFF⟩, by decide, rfl, rfl, event_hits _ 0x08 _⟩

theorem TableRow.uartTxComplete (c : Port) : TableRow.Statement (.uartTxComplete c) :=
  ⟨⟨"UART_TX_COMPLETE", .event, 0x09, 0xFF⟩, by decide, rfl, rfl, event_hits _ 0x09 _⟩

theorem TableRow.uartError (c : Port) (kind : Byte) : TableRow.Statement (.uartError c kind) :=
  ⟨⟨"UART_ERROR", .event, 0x0A, 0xFF⟩, by decide, rfl, rfl, event_hits _ 0x0A _⟩

theorem TableRow.timerTick : TableRow.Statement (.timerTick) :=
  ⟨⟨"TIMER_TICK", .event, 0x0B, 0xFF⟩, by decide, rfl, rfl, event_hits _ 0x0B _⟩

theorem TableRow.schedRun : TableRow.Statement (.schedRun) :=
  ⟨⟨"SCHED_RUN", .event, 0x0C, 0xFF⟩, by decide, rfl, rfl, event_hits _ 0x0C _⟩

theorem TableRow.pathClassNodata (dir : Dir) (recipient : BitVec 5) (bRequest : Byte) (wValue wIndex : Half) :
    TableRow.Statement (.pathClassNodata dir recipient bRequest wValue wIndex) := by
  refine ⟨⟨"PATH_CLASS_NODATA", .setupPath, 0x0000000000000020, 0xFFFF000000000060⟩, by decide, rfl, rfl, ?_⟩
  have h := land_high (m := 0xFFFF000000000060)
    (word_nodata ⟨dir, .classType, recipient, bRequest, wValue, wIndex, 0⟩ rfl)
  have e := (word_mask8 ⟨dir, .classType, recipient, bRequest, wValue, wIndex, 0⟩ (m := 0x60)
    (by decide)).trans (class_type dir recipient)
  exact beq_iff_eq.mpr (h.trans e)

theorem TableRow.pathClassIn (recipient : BitVec 5) (bRequest : Byte) (wValue wIndex wLength : Half) :
    TableRow.Statement (.pathClassIn recipient bRequest wValue wIndex wLength) :=
  ⟨⟨"PATH_CLASS_IN", .setupPath, 0x00000000000000A0, 0x00000000000000E0⟩, by decide, rfl, rfl,
    beq_iff_eq.mpr ((word_mask8 ⟨.deviceToHost, .classType, recipient, bRequest, wValue, wIndex, wLength⟩
      (by decide)).trans (class_in recipient))⟩

theorem TableRow.pathClassOut (recipient : BitVec 5) (bRequest : Byte) (wValue wIndex wLength : Half) :
    TableRow.Statement (.pathClassOut recipient bRequest wValue wIndex wLength) :=
  ⟨⟨"PATH_CLASS_OUT", .setupPath, 0x0000000000000020, 0x00000000000000E0⟩, by decide, rfl, rfl,
    beq_iff_eq.mpr ((word_mask8 ⟨.hostToDevice, .classType, recipient, bRequest, wValue, wIndex, wLength⟩
      (by decide)).trans (class_out recipient))⟩

theorem TableRow.pathStdGetInterface (dir : Dir) (recipient : BitVec 5) (wValue wIndex wLength : Half) :
    TableRow.Statement (.pathStdGetInterface dir recipient wValue wIndex wLength) := by
  refine ⟨⟨"PATH_STD_GET_INTERFACE", .setupPath, 0x0000000000000A00, 0x000000000000FF60⟩, by decide, rfl, rfl,
    beq_iff_eq.mpr ?_⟩
  have h := land_low (w := SetupPacket.word ⟨dir, .standard, recipient, 0x0A, wValue, wIndex, wLength⟩)
    (m := 0xFF60) (k := 16) (by decide)
  rw [word_low] at h
  exact h.trans (get_interface_bits dir recipient)

theorem TableRow.pathOther (pkt : SetupPacket) : TableRow.Statement (.pathOther pkt) :=
  ⟨⟨"PATH_OTHER", .setupPath, 0x0000000000000000, 0x0000000000000000⟩, by decide, rfl, rfl,
    beq_iff_eq.mpr (Nat.and_zero _)⟩

theorem TableRow.sendEncapsulatedCommand (r : ClassRequest) : TableRow.Statement (.sendEncapsulatedCommand r) :=
  ⟨⟨"SEND_ENCAPSULATED_COMMAND", .setupClass, 0x0020, 0xFF60⟩, by decide, rfl, rfl,
    beq_iff_eq.mpr (class_hits r 0x00 (by decide))⟩

theorem TableRow.getEncapsulatedResponse (r : ClassRequest) : TableRow.Statement (.getEncapsulatedResponse r) :=
  ⟨⟨"GET_ENCAPSULATED_RESPONSE", .setupClass, 0x0120, 0xFF60⟩, by decide, rfl, rfl,
    beq_iff_eq.mpr (class_hits r 0x01 (by decide))⟩

theorem TableRow.setCommFeature (r : ClassRequest) : TableRow.Statement (.setCommFeature r) :=
  ⟨⟨"SET_COMM_FEATURE", .setupClass, 0x0220, 0xFF60⟩, by decide, rfl, rfl,
    beq_iff_eq.mpr (class_hits r 0x02 (by decide))⟩

theorem TableRow.getCommFeature (r : ClassRequest) : TableRow.Statement (.getCommFeature r) :=
  ⟨⟨"GET_COMM_FEATURE", .setupClass, 0x0320, 0xFF60⟩, by decide, rfl, rfl,
    beq_iff_eq.mpr (class_hits r 0x03 (by decide))⟩

theorem TableRow.clearCommFeature (r : ClassRequest) : TableRow.Statement (.clearCommFeature r) :=
  ⟨⟨"CLEAR_COMM_FEATURE", .setupClass, 0x0420, 0xFF60⟩, by decide, rfl, rfl,
    beq_iff_eq.mpr (class_hits r 0x04 (by decide))⟩

theorem TableRow.setLineCoding (r : ClassRequest) : TableRow.Statement (.setLineCoding r) :=
  ⟨⟨"SET_LINE_CODING", .setupClass, 0x2020, 0xFF60⟩, by decide, rfl, rfl,
    beq_iff_eq.mpr (class_hits r 0x20 (by decide))⟩

theorem TableRow.getLineCoding (r : ClassRequest) : TableRow.Statement (.getLineCoding r) :=
  ⟨⟨"GET_LINE_CODING", .setupClass, 0x2120, 0xFF60⟩, by decide, rfl, rfl,
    beq_iff_eq.mpr (class_hits r 0x21 (by decide))⟩

theorem TableRow.setControlLineState (r : ClassRequest) : TableRow.Statement (.setControlLineState r) :=
  ⟨⟨"SET_CONTROL_LINE_STATE", .setupClass, 0x2220, 0xFF60⟩, by decide, rfl, rfl,
    beq_iff_eq.mpr (class_hits r 0x22 (by decide))⟩

theorem TableRow.sendBreak (r : ClassRequest) : TableRow.Statement (.sendBreak r) :=
  ⟨⟨"SEND_BREAK", .setupClass, 0x2320, 0xFF60⟩, by decide, rfl, rfl,
    beq_iff_eq.mpr (class_hits r 0x23 (by decide))⟩

theorem TableRow.classUnknown (bRequest : Byte) (r : ClassRequest) :
    TableRow.Statement (.classUnknown bRequest r) :=
  ⟨⟨"CLASS_UNKNOWN", .setupClass, 0x0000000000000020, 0x0000000000000060⟩, by decide, rfl, rfl,
    beq_iff_eq.mpr ((word_mask8 (r.packet bRequest) (by decide)).trans (class_type r.dir r.recipient))⟩

end Sys2Proof.Laws
end

