-- ==== Sys2Proof/Tests/Slice0.lean ====
section
/-! SUPPORT. The model's own tests: ill-formed instructions refused, one hand-written word per instruction, one or
two steps per instruction (expected values from spec/95_test_vectors.md or worked out from the rule named), and a
state that meets the hypotheses of every statement that has some. -/

namespace Sys2Proof.Tests

open Sys2Proof.Machine

/-! ### Ill-formed instructions -/

theorem test_wf_refuses_empty_data_stage : (Instr.ctrlDataComplete []).wf = false := by decide
theorem test_wf_refuses_long_data_stage (n : Nat) (h : 65535 < n) :
    (Instr.ctrlDataComplete (List.replicate n 0)).wf = false := by
  simp only [Instr.wf, largestWLength, List.length_replicate, Bool.and_eq_false_iff, decide_eq_false_iff_not]
  omega
theorem test_wf_refuses_long_packet (n : Nat) (h : 512 < n) :
    (Instr.dataOutComplete 0x01 (List.replicate n 0)).wf = false := by
  simp only [Instr.wf, largestPacket, List.length_replicate, decide_eq_false_iff_not]
  omega
theorem test_wf_refuses_class_in_without_data : (Instr.pathClassIn 1 0x21 0 0 0).wf = false := by decide
theorem test_wf_refuses_class_out_without_data : (Instr.pathClassOut 1 0x20 0 0 0).wf = false := by decide
theorem test_wf_refuses_other_of_class :
    (Instr.pathOther ⟨.hostToDevice, .classType, 1, 0x20, 0, 0, 7⟩).wf = false := by decide
theorem test_wf_refuses_other_of_get_interface :
    (Instr.pathOther ⟨.deviceToHost, .standard, 1, 0x0A, 0, 0, 1⟩).wf = false := by decide
theorem test_wf_refuses_unknown_of_named_code :
    (Instr.classUnknown 0x23 ⟨.hostToDevice, 1, 0, 0, 0⟩).wf = false := by decide

/-! ### One word per instruction, written from spec/30_encoding.md (R92, R93, R98 to R101) -/

theorem test_decode_reset : decode (eventRecord [0x00]) = .ok .reset := by decide
theorem test_decode_configure : decode (eventRecord [0x01]) = .ok .configure := by decide
theorem test_decode_deconfigure : decode (eventRecord [0x02]) = .ok .deconfigure := by decide
theorem test_decode_setup : decode (eventRecord [0x03, 0x21, 0x20, 0x34, 0x12, 0x02, 0x01, 0x07, 0x00]) =
    .ok (.setup ⟨.hostToDevice, .classType, 1, 0x20, 0x1234, 0x0102, 7⟩) := by decide
theorem test_decode_ctrlDataComplete : decode (eventRecord [0x04, 0x80, 0x25]) =
    .ok (.ctrlDataComplete [0x80, 0x25]) := by decide
theorem test_decode_dataInComplete : decode (eventRecord [0x05, 0x81]) = .ok (.dataInComplete 0x81) := by decide
theorem test_decode_dataOutComplete : decode (eventRecord [0x06, 0x01, 0x41, 0x54]) =
    .ok (.dataOutComplete 0x01 [0x41, 0x54]) := by decide
theorem test_decode_uartRxByte : decode (eventRecord [0x07, 0x01, 0x10]) = .ok (.uartRxByte .p1 0x10) := by decide
theorem test_decode_uartTxByte : decode (eventRecord [0x08, 0x00]) = .ok (.uartTxByte .p0) := by decide
theorem test_decode_uartTxComplete : decode (eventRecord [0x09, 0x01]) = .ok (.uartTxComplete .p1) := by decide
theorem test_decode_uartError : decode (eventRecord [0x0A, 0x01, 0x02]) = .ok (.uartError .p1 0x02) := by decide
theorem test_decode_timerTick : decode (eventRecord [0x0B]) = .ok .timerTick := by decide
theorem test_decode_schedRun : decode (eventRecord [0x0C]) = .ok .schedRun := by decide
theorem test_decode_pathClassNodata : decode ⟨.setupPath, [0x21, 0x22, 0x03, 0x00, 0x02, 0x00, 0x00, 0x00]⟩ =
    .ok (.pathClassNodata .hostToDevice 1 0x22 3 2) := by decide
theorem test_decode_pathClassIn : decode ⟨.setupPath, [0xA1, 0x21, 0x00, 0x00, 0x02, 0x00, 0x00, 0x01]⟩ =
    .ok (.pathClassIn 1 0x21 0 2 0x100) := by decide
theorem test_decode_pathClassOut : decode ⟨.setupPath, [0x21, 0x20, 0x00, 0x00, 0x00, 0x00, 0x07, 0x00]⟩ =
    .ok (.pathClassOut 1 0x20 0 0 7) := by decide
theorem test_decode_pathStdGetInterface : decode ⟨.setupPath, [0x81, 0x0A, 0x00, 0x00, 0x02, 0x00, 0x01, 0x00]⟩ =
    .ok (.pathStdGetInterface .deviceToHost 1 0 2 1) := by decide
theorem test_decode_pathOther : decode ⟨.setupPath, [0x41, 0x20, 0x00, 0x00, 0x00, 0x00, 0x07, 0x00]⟩ =
    .ok (.pathOther ⟨.hostToDevice, .vendor, 1, 0x20, 0, 0, 7⟩) := by decide
theorem test_decode_sendEncapsulatedCommand :
    decode ⟨.setupClass, [0x21, 0x00, 0x00, 0x00, 0x00, 0x00, 0x04, 0x00]⟩ =
    .ok (.sendEncapsulatedCommand ⟨.hostToDevice, 1, 0, 0, 4⟩) := by decide
theorem test_decode_getEncapsulatedResponse :
    decode ⟨.setupClass, [0xA1, 0x01, 0x00, 0x00, 0x00, 0x00, 0x04, 0x00]⟩ =
    .ok (.getEncapsulatedResponse ⟨.deviceToHost, 1, 0, 0, 4⟩) := by decide
theorem test_decode_setCommFeature : decode ⟨.setupClass, [0x21, 0x02, 0x01, 0x00, 0x02, 0x00, 0x02, 0x00]⟩ =
    .ok (.setCommFeature ⟨.hostToDevice, 1, 1, 2, 2⟩) := by decide
theorem test_decode_getCommFeature : decode ⟨.setupClass, [0xA1, 0x03, 0x01, 0x00, 0x02, 0x00, 0x02, 0x00]⟩ =
    .ok (.getCommFeature ⟨.deviceToHost, 1, 1, 2, 2⟩) := by decide
theorem test_decode_clearCommFeature : decode ⟨.setupClass, [0x21, 0x04, 0x01, 0x00, 0x00, 0x00, 0x00, 0x00]⟩ =
    .ok (.clearCommFeature ⟨.hostToDevice, 1, 1, 0, 0⟩) := by decide
theorem test_decode_setLineCoding : decode ⟨.setupClass, [0x21, 0x20, 0x00, 0x00, 0x00, 0x00, 0x07, 0x00]⟩ =
    .ok (.setLineCoding ⟨.hostToDevice, 1, 0, 0, 7⟩) := by decide
theorem test_decode_getLineCoding : decode ⟨.setupClass, [0xA1, 0x21, 0x00, 0x00, 0x02, 0x00, 0x07, 0x00]⟩ =
    .ok (.getLineCoding ⟨.deviceToHost, 1, 0, 2, 7⟩) := by decide
theorem test_decode_setControlLineState :
    decode ⟨.setupClass, [0x21, 0x22, 0x03, 0x00, 0x00, 0x00, 0x00, 0x00]⟩ =
    .ok (.setControlLineState ⟨.hostToDevice, 1, 3, 0, 0⟩) := by decide
theorem test_decode_sendBreak : decode ⟨.setupClass, [0x21, 0x23, 0xFF, 0xFF, 0x02, 0x00, 0x00, 0x00]⟩ =
    .ok (.sendBreak ⟨.hostToDevice, 1, 0xFFFF, 2, 0⟩) := by decide
theorem test_decode_classUnknown : decode ⟨.setupClass, [0x21, 0xFF, 0x00, 0x00, 0x00, 0x00, 0x02, 0x00]⟩ =
    .ok (.classUnknown 0xFF ⟨.hostToDevice, 1, 0, 0, 2⟩) := by decide

theorem test_decode_refuses_unknown_kind : decode (eventRecord [0x0D]) = .error (.unknownKind 0x0D) := by decide
theorem test_decode_refuses_channel_two : decode (eventRecord [0x08, 0x02]) = .error (.badChannel 0x02) := by decide
theorem test_decode_refuses_short_packet : decode (eventRecord [0x03, 0x21, 0x20]) = .error .badPacketLength := by
  decide
theorem test_decode_table_word :
    decodeTableWord 8 0x0B = some .timerTick ∧
    decodeTableWord 64 0x0007000000002120 = some (.getLineCoding ⟨.hostToDevice, 0, 0, 0, 7⟩) ∧
    decodeTableWord 16 0x0A00 = some (.pathStdGetInterface .hostToDevice 0 0 0 0) := by decide

/-! ### Steps -/

/-- "State S1" of spec/95_test_vectors.md: after RESET and CONFIGURE with every answer yes. -/
def s1 : State := { State.reset with
  configured := true
  ports := Two.both { PortRegs.initial with outArmed := true }
  chans := Two.both { ChanRegs.initial 256 with dmaRunning := true } }

/-- S1 with `RING_CAP = 8`. -/
def s1Ring8 : State := { s1 with
  params := { Config.reference with ringCap := 8 }
  chans := Two.both { ChanRegs.initial 8 with dmaRunning := true } }

/-- S1 with the Port items of port 0 changed. -/
def s1Port (f : PortRegs → PortRegs) : State := s1.modPort .p0 f

/-- S1 with the Channel items of channel 0 changed. -/
def s1Chan (f : ChanRegs → ChanRegs) : State := s1.modChan .p0 f

/-- Every answer yes but for the UART init and deinit of channel 0. -/
def initFails : Draws := { Draws.allOk with initOk := ⟨false, true⟩ }

/-- Every answer yes but for the UART init of channel 1. -/
def initFails1 : Draws := { Draws.allOk with initOk := ⟨true, false⟩ }

/-- Every answer yes but for the UART deinit of channel 0. -/
def deinitFails : Draws := { Draws.allOk with deinitOk := ⟨false, true⟩ }

/-- Every answer yes but for the UART deinit of channel 1. -/
def deinitFails1 : Draws := { Draws.allOk with deinitOk := ⟨true, false⟩ }

/-- The block halted by FatalHalt. -/
def halted : State := { s1 with fatal := true }

/-- S1 with a data stage armed on port 0 for a command. -/
def awaiting (opcode : Byte) (n : Nat) : State :=
  { s1Port (fun r => { r with pendingCommand := some { opcode := opcode, length := BitVec.ofNat 16 n } }) with
    ctrlRxArmed := some { port := .p0, length := n } }

/-- The line coding `80 25 00 00 00 00 08`. -/
def lc9600 : LineCoding := { baudRate := 9600, stopCode := 0, parityCode := 0, dataBits := 8 }

/-- `{9600, 8, 1, none}`. -/
def cfg9600 : UartCfg := { baud := 9600, wordLen := .eight, stop := .one, parity := .none }

/-- An outcome is a next state with a property. -/
def nextIs (o : Host.Outcome State Fault Refusal) (f : State → Bool) : Bool :=
  match o with
  | .next t => f t
  | .fault _ => false
  | .refused _ => false

/-- An outcome is this refusal. -/
def refusedAs (o : Host.Outcome State Fault Refusal) (r : Refusal) : Bool :=
  match o with
  | .next _ => false
  | .fault _ => false
  | .refused r' => r' == r

-- V-LIF8: the end of RESET is S0.
theorem test_reset_clears : nextIs (exec .reset halted) (fun t => t == { State.reset with resets := 1 }) = true := by
  decide
-- V-LIF1.
theorem test_configure_gives_s1 : nextIs (exec .configure State.reset) (fun t =>
    t == { s1 with out := t.out } && t.out.length == 13 && t.out.drop 10 ==
      [.armReceive 0x01, .armReceive 0x03, .configResult true]) = true := by decide
-- V-LIF3.
theorem test_configure_init_failure : nextIs (exec .configure { State.reset with draws := initFails })
    (fun t => t.fatal && !t.configured && !(t.port .p0).outArmed && t.out.drop 6 ==
      [.uartInit .p0 Config.uartCfgDefault, .fatal .peripheralInitFailure]) = true := by decide
-- V-LIF5, the order of the actions and what is kept.
theorem test_deconfigure : nextIs (exec .deconfigure { s1 with tickFlag := true }) (fun t =>
    t == { State.reset with tickFlag := true, out := [.closeEndpoint 0x81, .closeEndpoint 0x01, .closeEndpoint 0x82,
      .closeEndpoint 0x83, .closeEndpoint 0x03, .closeEndpoint 0x84, .uartDeinit .p0, .uartDeinit .p1] }) = true := by
  decide
-- V-LIF6.
theorem test_deconfigure_deinit_failure : nextIs (exec .deconfigure { s1 with draws := deinitFails }) (fun t =>
    t.fatal && t.configured && !(t.chan .p0).dmaRunning && (t.chan .p1).dmaRunning) = true := by decide
-- V-CTL1.
theorem test_setup_unroutable : nextIs (exec (.setup ⟨.hostToDevice, .classType, 1, 0x20, 0, 1, 7⟩) s1) (fun t =>
    t == { s1 with out := [.diag .unroutableRequest 0x01], raised := [.unroutableRequest 0x01] }) = true := by decide
-- V-CTL6.
theorem test_setup_out_arms : nextIs (exec (.setup ⟨.hostToDevice, .classType, 1, 0x20, 0, 2, 7⟩) s1) (fun t =>
    t.ctrlRxArmed == some ⟨.p1, 7⟩ && (t.port .p1).pendingCommand == some ⟨0x20, 7⟩ &&
    (t.port .p0).pendingCommand == none && t.out == [.ctrlReceive .p1 7]) = true := by decide
-- SRC3.
theorem test_ctrlDataComplete_sets_line_coding :
    nextIs (exec (.ctrlDataComplete [0x80, 0x25, 0, 0, 0, 0, 0x08]) (awaiting 0x20 7)) (fun t =>
      (t.port .p0).lineCoding == lc9600 && (t.chan .p0).uartCfg == cfg9600 &&
      (t.port .p0).pendingCommand == none && t.ctrlRxArmed == none &&
      t.out == [.uartDeinit .p0, .uartInit .p0 cfg9600, .dmaStart .p0]) = true := by decide
-- V-CTL10, on port 0.
theorem test_ctrlDataComplete_init_failure :
    nextIs (exec (.ctrlDataComplete [0, 0, 0, 0, 0, 0, 0x08]) { awaiting 0x20 7 with draws := initFails }) (fun t =>
      t.fatal && t.configured && !(t.chan .p0).dmaRunning && (t.port .p0).pendingCommand == some ⟨0x20, 7⟩) =
      true := by decide
-- R160.
theorem test_dataInComplete : nextIs (exec (.dataInComplete 0x81) (s1Port fun r => { r with txState := .busy }))
    (fun t => t == s1) = true := by decide
-- PROG3.
theorem test_dataOutComplete : nextIs (exec (.dataOutComplete 0x01 [0x41, 0x54]) s1) (fun t =>
    t.bufs.at0.rxBuf == [(0, 0x41), (1, 0x54)] && (t.port .p0).rxLength == 2 && !(t.port .p0).outArmed &&
    (t.chan .p0).uartTxBusy && (t.chan .p0).uartTxLen == 2 && (t.port .p1).outArmed &&
    t.out == [.uartTxStart .p0 2]) = true := by decide
-- R164 with ZLP_OUT_REARM false: the endpoint is parked.
theorem test_dataOutComplete_empty : nextIs (exec (.dataOutComplete 0x03 []) s1) (fun t =>
    outPath t .p1 == .parked && t.out == [.uartTxStart .p1 0]) = true := by decide
-- V-RNG15.
theorem test_uartRxByte_reloads :
    nextIs (exec (.uartRxByte .p0 0x7E) (s1Chan fun r => { r with rxRemaining := 1 })) (fun t =>
      t.bufs.at0.rxRing == [(255, 0x7E)] && (t.chan .p0).rxRemaining == 256) = true := by decide
-- R192.
theorem test_uartRxByte_stopped : nextIs (exec (.uartRxByte .p0 0x41) State.reset) (fun t => t == State.reset) =
    true := by decide
-- PROG3, the second TXB 0.
theorem test_uartTxByte : nextIs (exec (.uartTxByte .p0)
    ((s1Chan fun r => { r with uartTxBusy := true, uartTxLen := 2, uartTxPos := 1 }).store .rxBuf .p0 0
      [0x41, 0x54])) (fun t => (t.chan .p0).uartTxPos == 2 &&
        t.out == [.lineByte .p0 0x54 Config.uartCfgDefault]) = true := by decide
-- PROG3, TXC 0.
theorem test_uartTxComplete : nextIs (exec (.uartTxComplete .p0)
    ((s1Chan fun r => { r with uartTxBusy := true, uartTxLen := 2, uartTxPos := 2 }).modPort .p0
      fun r => { r with outArmed := false })) (fun t =>
        !(t.chan .p0).uartTxBusy && (t.port .p0).outArmed && t.out == [.armReceive 0x01]) = true := by decide
-- V-ERR1.
theorem test_uartError_overrun : nextIs (exec (.uartError .p0 0x01) State.reset) (fun t =>
    (t.chan .p0).errOverrun && !(t.chan .p0).errFraming && t.out == [.diag .uartOverrun 0x00]) = true := by decide
theorem test_uartError_framing : nextIs (exec (.uartError .p1 0x02) s1) (fun t =>
    (t.chan .p1).errFraming && !(t.chan .p1).errOverrun && t.out == [.diag .uartFraming 0x01]) = true := by decide
-- R193.
theorem test_timerTick : nextIs (exec .timerTick s1) (fun t => t == { s1 with tickFlag := true }) = true := by decide
-- PROG2, the third drain, on port 0: r = 7, w = 2.
theorem test_schedRun_wraps : nextIs (exec .schedRun
    { (s1Ring8.modChan .p0 fun r => { r with rxRemaining := 6, rxReadCursor := 7 }).store .rxRing .p0 0
      [0x18, 0x19, 0x12, 0x13, 0x14, 0x15, 0x16, 0x17] with tickFlag := true }) (fun t =>
        t.out == [.usbTransmit 0x81 [0x17, 0x18, 0x19]] && (t.chan .p0).rxReadCursor == 2 &&
        (t.port .p0).txLen == 3 && (t.port .p0).txState == .busy) = true := by decide
-- SRC5 (b): the second drain.
theorem test_schedRun_busy_drops : nextIs (exec .schedRun
    { (s1Ring8.modChan .p0 fun r => { r with rxRemaining := 3, rxReadCursor := 2 }).modPort .p0
      (fun r => { r with txState := .busy, txLen := 2 }) with tickFlag := true }) (fun t =>
        t.out == [] && t.raised == [.busy .p0] && (t.chan .p0).rxReadCursor == 5 &&
        (t.port .p0).txLen == 2) = true := by decide
-- V-CTL3.
theorem test_pathClassNodata : nextIs (exec (.pathClassNodata .hostToDevice 1 0x22 3 0) s1) (fun t => t == s1) =
    true := by decide
-- V-CTL7.
theorem test_pathClassIn : nextIs (exec (.pathClassIn 1 0x21 0 0 3) s1) (fun t =>
    t.out == [.ctrlSend [0x00, 0xC2, 0x01]]) = true := by decide
-- V-CTL4.
theorem test_pathClassOut : nextIs (exec (.pathClassOut 1 0xFF 0 0 2) s1) (fun t =>
    t.ctrlRxArmed == some ⟨.p0, 2⟩ && ctrlState t .p0 == .awaitingData) = true := by decide
-- V-CTL5.
theorem test_pathStdGetInterface : nextIs (exec (.pathStdGetInterface .deviceToHost 1 0 2 1) s1) (fun t =>
    t == { s1 with out := [.ctrlSend [0x00]] }) = true := by decide
theorem test_pathOther : nextIs (exec (.pathOther ⟨.hostToDevice, .vendor, 1, 0x20, 0, 0, 7⟩) s1)
    (fun t => t == s1) = true := by decide
-- V-CTL3, its eight requests.
theorem test_sendEncapsulatedCommand : nextIs (exec (.sendEncapsulatedCommand ⟨.hostToDevice, 1, 0, 0, 4⟩) s1)
    (fun t => t.out == [.ctrlReceive .p0 4]) = true := by decide
theorem test_getEncapsulatedResponse : nextIs (exec (.getEncapsulatedResponse ⟨.deviceToHost, 1, 0, 0, 4⟩)
    (s1.store .ctrlBuf .p0 0 [0xDE, 0xAD, 0xBE, 0xEF])) (fun t =>
      t.out == [.ctrlSend [0xDE, 0xAD, 0xBE, 0xEF]]) = true := by decide
theorem test_setCommFeature : nextIs (exec (.setCommFeature ⟨.hostToDevice, 1, 1, 2, 2⟩) s1)
    (fun t => t.out == [.ctrlReceive .p1 2]) = true := by decide
theorem test_getCommFeature : nextIs (exec (.getCommFeature ⟨.deviceToHost, 1, 1, 2, 2⟩)
    (s1.store .ctrlBuf .p1 0 [0x01, 0x00])) (fun t => t.out == [.ctrlSend [0x01, 0x00]]) = true := by decide
theorem test_clearCommFeature : nextIs (exec (.clearCommFeature ⟨.hostToDevice, 1, 1, 0, 0⟩) s1)
    (fun t => t == s1) = true := by decide
theorem test_setControlLineState : nextIs (exec (.setControlLineState ⟨.hostToDevice, 1, 3, 0, 0⟩) s1)
    (fun t => t == s1) = true := by decide
theorem test_sendBreak : nextIs (exec (.sendBreak ⟨.hostToDevice, 1, 0xFFFF, 2, 0⟩) s1)
    (fun t => t == s1) = true := by decide
-- V-CTL8: SET_LINE_CODING with wLength 0 parses the buffer as it is.
theorem test_setLineCoding_nodata : nextIs (exec (.setLineCoding ⟨.hostToDevice, 1, 0, 0, 0⟩)
    (s1.store .ctrlBuf .p0 0 [0x00, 0x4B, 0x00, 0x00, 0x02, 0x01, 0x07])) (fun t => t.out == [.uartDeinit .p0,
      .uartInit .p0 { baud := 19200, wordLen := .seven, stop := .two, parity := .odd }, .dmaStart .p0]) = true := by
  decide
-- SRC4.
theorem test_getLineCoding : nextIs (exec (.getLineCoding ⟨.deviceToHost, 1, 0, 0, 7⟩) s1) (fun t =>
    t.out == [.ctrlSend [0x00, 0xC2, 0x01, 0x00, 0x00, 0x00, 0x08]]) = true := by decide
-- V-CTL4.
theorem test_classUnknown : nextIs (exec (.classUnknown 0xFF ⟨.hostToDevice, 1, 0, 0, 2⟩) s1) (fun t =>
    (t.port .p0).pendingCommand == some ⟨0xFF, 2⟩ && t.out == [.ctrlReceive .p0 2]) = true := by decide

-- V-CTL9, five of its rows.
theorem test_cfg_of :
    cfgOf (lineCodingOfBytes 0x80 0x25 0 0 2 1 7) = { baud := 9600, wordLen := .seven, stop := .two, parity := .odd } ∧
    cfgOf (lineCodingOfBytes 0x80 0x25 0 0 0 2 9) = { baud := 9600, wordLen := .nine, stop := .one, parity := .even } ∧
    cfgOf (lineCodingOfBytes 0x00 0xC2 1 0 1 3 0x10) = Config.uartCfgDefault ∧
    cfgOf (lineCodingOfBytes 0x00 0x10 0x0E 0 2 4 6) =
      { baud := 921600, wordLen := .eight, stop := .two, parity := .none } ∧
    cfgOf (lineCodingOfBytes 0xFF 0xFF 0xFF 0xFF 0xFF 0xFF 0xFF) =
      { baud := 4294967295, wordLen := .eight, stop := .one, parity := .none } := by decide

-- V-RNG13: a capacity that is no power of two.
theorem test_bytes_available : bytesAvailable 5 2 4 = 3 ∧ bytesAvailable 256 50 200 = 106 ∧
    bytesAvailable 8 3 3 = 0 := by decide

/-! ### States and operands that meet the hypotheses of the statements

`witness_<Name>` belongs to `Obligations.<Name>`; where a statement has several clauses it has one part for each,
at the boundary of its range. -/

/-- `wIndex` 0 selects port 0 and 2 selects port 1 in S1 and in S1 with other registers. -/
theorem s1_routes : Routed s1 0 .p0 ∧ Routed s1 2 .p1 ∧ Routed s1 0x0102 .p1 := ⟨⟨rfl, rfl⟩, ⟨rfl, rfl⟩, ⟨rfl, rfl⟩⟩

theorem s1_valid : s1.params.Valid := by decide

/-- S1 has the invariant. -/
theorem s1_invariant : Invariant s1 where
  params := s1_valid
  buffers := by intro b p; cases b <;> cases p <;> decide
  live _ :=
    { ringRegisters := by intro c; cases c <;> decide
      armedNotSending := by intro c; cases c <;> decide
      unconfiguredIdle := fun h => nomatch h
      busyLength := by intro c; cases c <;> decide
      sendingLength := by intro c; cases c <;> decide
      lineRange := by intro c; cases c <;> decide
      armedPending := fun _ h => nomatch h
      armedRange := fun _ h => nomatch h
      configuredRunning := by intro _ c; cases c <;> decide
      framingCurrent := by intro c; cases c <;> decide }

/-- S1 with one event delivered. -/
def s1Fed (bytes : List Byte) : State := s1.deliver (eventRecord bytes)

/-- S1 with one event delivered has the invariant, which does not look at the queue. -/
theorem s1Fed_invariant (bytes : List Byte) : Invariant (s1Fed bytes) where
  params := s1_valid
  buffers := s1_invariant.buffers
  live h :=
    { ringRegisters := (s1_invariant.live h).ringRegisters
      armedNotSending := (s1_invariant.live h).armedNotSending
      unconfiguredIdle := fun h => nomatch h
      busyLength := (s1_invariant.live h).busyLength
      sendingLength := (s1_invariant.live h).sendingLength
      lineRange := (s1_invariant.live h).lineRange
      armedPending := fun _ h => nomatch h
      armedRange := fun _ h => nomatch h
      configuredRunning := (s1_invariant.live h).configuredRunning
      framingCurrent := (s1_invariant.live h).framingCurrent }

theorem witness_DecodeOfEncode : (∀ n, n ≤ 512 → (Instr.dataOutComplete 0x01 (List.replicate n 0)).wf = true) ∧
    (Instr.ctrlDataComplete [0x00]).wf = true ∧ (Instr.pathClassIn 1 0x21 0 0 0xFFFF).wf = true := by
  refine ⟨fun n hn => ?_, by decide, by decide⟩
  simpa [Instr.wf, largestPacket] using hn
theorem witness_EncodeOfDecode : decode (eventRecord [0x0A, 0x01, 0x02]) = .ok (.uartError .p1 0x02) := by decide
theorem witness_SetupRowsAreFirstMatches :
    (packetOfBytes 0x21 0x20 0x00 0x00 0x00 0x00 0x07 0x00).reqType = .classType := by decide
theorem witness_UnassignedKindsRefused : 0x0C < (0x0D : Byte).toNat ∧ 0x0C < (0xFF : Byte).toNat := by decide
theorem witness_StepRunsDecodedInstruction :
    ((s1Fed [0x0B]).inbox = ⟨eventRecord [0x0B], Draws.allOk⟩ :: [] ∧ decode (eventRecord [0x0B]) = .ok .timerTick) ∧
    ((s1Fed [0x0D]).inbox = ⟨eventRecord [0x0D], Draws.allOk⟩ :: [] ∧
      decode (eventRecord [0x0D]) = .error (.unknownKind 0x0D)) ∧
    decodeTableWord 8 0x0B = some .timerTick := by decide
theorem witness_IdleWithoutEvents : State.reset.inbox = [] := by decide
theorem witness_StepKeepsInvariant : Invariant (s1Fed [0x0B]) ∧
    step (s1Fed [0x0B]) = .next { s1 with tickFlag := true } := ⟨s1Fed_invariant _, rfl⟩
theorem witness_InvariantExcludesFaults : Invariant (s1Fed [0x0C]) := s1Fed_invariant _
theorem witness_StepKeepsParametersAndHistory : step (s1Fed [0x0B]) = .next { s1 with tickFlag := true } := rfl
theorem witness_HaltedTakesOnlyReset : halted.fatal = true ∧ Instr.timerTick ≠ .reset := by decide
theorem witness_SetupFormsAgree :
    decodeClass ⟨.hostToDevice, .classType, 1, 0x20, 0, 0, 7⟩ = .ok (.setLineCoding ⟨.hostToDevice, 1, 0, 0, 7⟩) := by
  decide
theorem witness_ConfigureCreatesBothPairs : State.reset.fatal = false ∧ State.reset.configured = false ∧
    State.reset.draws.allocOk = true ∧ ∀ c, State.reset.draws.initOk.get c = true :=
  ⟨rfl, rfl, rfl, fun c => by cases c <;> rfl⟩
theorem witness_ConfigureWithoutMemoryFails :
    let s : State := { State.reset with draws := { Draws.allOk with allocOk := false } }
    s.fatal = false ∧ s.configured = false ∧ s.draws.allocOk = false := by decide
theorem witness_ConfigureHaltsOnInitFailure :
    (let s : State := { State.reset with draws := initFails }
     s.fatal = false ∧ s.configured = false ∧ s.draws.allocOk = true ∧ s.draws.initOk.get .p0 = false) ∧
    (let s : State := { State.reset with draws := initFails1 }
     s.fatal = false ∧ s.configured = false ∧ s.draws.allocOk = true ∧ s.draws.initOk.get .p0 = true ∧
       s.draws.initOk.get .p1 = false) := by decide
theorem witness_RepeatedLifecycleEventsDoNothing : (s1.fatal = false ∧ s1.configured = true) ∧
    (State.reset.fatal = false ∧ State.reset.configured = false) := by decide
theorem witness_DeconfigureTearsDown : s1.fatal = false ∧ s1.configured = true ∧
    ∀ c, s1.draws.deinitOk.get c = true := ⟨rfl, rfl, fun c => by cases c <;> rfl⟩
theorem witness_DeconfigureHaltsOnDeinitFailure :
    (let s : State := { s1 with draws := deinitFails }
     s.fatal = false ∧ s.configured = true ∧ s.draws.deinitOk.get .p0 = false) ∧
    (let s : State := { s1 with draws := deinitFails1 }
     s.fatal = false ∧ s.configured = true ∧ s.draws.deinitOk.get .p0 = true ∧
       s.draws.deinitOk.get .p1 = false) := by decide
theorem witness_UnroutableRequestIsDropped :
    (State.reset.fatal = false ∧ setupIndex (.sendBreak ⟨.hostToDevice, 1, 0, 0, 0⟩) = some 0 ∧
      Unroutable State.reset 0) ∧
    (s1.fatal = false ∧ setupIndex (.pathClassIn 1 0x21 0 1 7) = some 1 ∧ Unroutable s1 1) :=
  ⟨⟨rfl, rfl, .inl rfl⟩, ⟨rfl, rfl, .inr fun p => by cases p <;> decide⟩⟩
theorem witness_ClassOutArmsDataStage :
    s1.fatal = false ∧ s1.params.Valid ∧ Routed s1 0x0102 .p1 ∧
    (let pkt : SetupPacket := ⟨.hostToDevice, .classType, 1, 0x20, 0, 0x0102, 64⟩
     pkt.reqType = .classType ∧ pkt.dir = .hostToDevice ∧ pkt.wLength ≠ 0 ∧
       pkt.wLength.toNat ≤ s1.params.ctrlBufCap) :=
  ⟨rfl, s1_valid, s1_routes.2.2, by decide⟩
theorem witness_NoEffectRequestsFollowTheirPath :
    (s1.fatal = false ∧ s1.params.Valid ∧ Routed s1 0 .p0 ∧
      (0x23, Instr.sendBreak ⟨.hostToDevice, 1, 0, 0, 0⟩) ∈ noEffectRequests ⟨.hostToDevice, 1, 0, 0, 0⟩ ∧
      (64 : Half) ≠ 0 ∧ (64 : Half).toNat ≤ s1.params.ctrlBufCap) ∧
    (let s := awaiting 0x22 2
     s.fatal = false ∧ s.params.Valid ∧ s.ctrlRxArmed = some { port := .p0, length := [0x01, 0x00].length } ∧
     [(0x01 : Byte), 0x00].length ≤ s.params.ctrlBufCap ∧ (s.port .p0).pendingCommand = some ⟨0x22, 2⟩) :=
  ⟨⟨rfl, s1_valid, s1_routes.1, by decide, by decide, by decide⟩, by decide⟩
theorem witness_OtherClassRequestsFollowTheirPath :
    s1.fatal = false ∧ s1.params.Valid ∧ Routed s1 2 .p1 ∧ (0xFF : Byte) ≠ 0x20 ∧ (0xFF : Byte) ≠ 0x21 ∧
    (64 : Half) ≠ 0 ∧ (64 : Half).toNat ≤ s1.params.ctrlBufCap :=
  ⟨rfl, s1_valid, s1_routes.2.1, by decide, by decide, by decide, by decide⟩
theorem witness_GetLineCodingSerialises :
    s1.fatal = false ∧ s1.params.Valid ∧ Routed s1 0 .p0 ∧ (64 : Half) ≠ 0 ∧
      (64 : Half).toNat ≤ s1.params.ctrlBufCap := ⟨rfl, s1_valid, s1_routes.1, by decide, by decide⟩
theorem witness_SetLineCodingReconfigures :
    s1.fatal = false ∧ s1.params.Valid ∧ Routed s1 0 .p0 ∧ s1.draws.deinitOk.get .p0 = true ∧
      s1.draws.initOk.get .p0 = true ∧ (64 : Half) ≠ 0 ∧ (64 : Half).toNat ≤ s1.params.ctrlBufCap :=
  ⟨rfl, s1_valid, s1_routes.1, rfl, rfl, by decide, by decide⟩
theorem witness_GetInterfaceAnswersZero :
    s1.fatal = false ∧ s1.params.Valid ∧ Routed s1 2 .p1 ∧
    (let pkt : SetupPacket := ⟨.deviceToHost, .standard, 1, 0x0A, 0, 2, 1⟩
     pkt.reqType = .standard ∧ pkt.bRequest = 0x0A) := ⟨rfl, s1_valid, s1_routes.2.1, by decide⟩
theorem witness_OtherRequestsDoNothing :
    s1.fatal = false ∧ s1.params.Valid ∧ Routed s1 0 .p0 ∧
    (let pkt : SetupPacket := ⟨.hostToDevice, .standard, 1, 0x0B, 0, 0, 0⟩
     pkt.reqType = .standard ∧ pkt.bRequest ≠ 0x0A) ∧
    (⟨.hostToDevice, .vendor, 1, 0x20, 0, 0, 7⟩ : SetupPacket).reqType = .vendor ∧
    (⟨.hostToDevice, .reserved, 1, 0x20, 0, 0, 7⟩ : SetupPacket).reqType = .reserved :=
  ⟨rfl, s1_valid, s1_routes.1, by decide, rfl, rfl⟩

/-- The seven bytes of SRC3. -/
def payload9600 : List Byte := [0x80, 0x25, 0x00, 0x00, 0x00, 0x00, 0x08]

theorem witness_DataStageSetsLineCoding :
    let s := awaiting 0x20 7
    s.fatal = false ∧ s.params.Valid ∧ s.ctrlRxArmed = some { port := .p0, length := payload9600.length } ∧
    payload9600.length ≤ s.params.ctrlBufCap ∧ (s.port .p0).pendingCommand = some ⟨0x20, 7⟩ ∧
    s.draws.deinitOk.get .p0 = true ∧ s.draws.initOk.get .p0 = true := by decide
theorem witness_DataStageOfOtherRequests :
    (let s := awaiting 0x21 7
     s.fatal = false ∧ s.params.Valid ∧ s.ctrlRxArmed = some { port := .p0, length := payload9600.length } ∧
     payload9600.length ≤ s.params.ctrlBufCap ∧ (s.port .p0).pendingCommand = some ⟨0x21, 7⟩) ∧
    (let s := awaiting 0xFF 2
     s.ctrlRxArmed = some { port := .p0, length := [0xAA, 0xBB].length } ∧
     (s.port .p0).pendingCommand = some ⟨0xFF, 2⟩) := by decide
theorem witness_ReconfigurationFailureHalts :
    (let s : State := { awaiting 0x20 7 with draws := initFails }
     s.fatal = false ∧ s.params.Valid ∧ s.ctrlRxArmed = some { port := .p0, length := payload9600.length } ∧
     payload9600.length ≤ s.params.ctrlBufCap ∧ (s.port .p0).pendingCommand = some ⟨0x20, 7⟩ ∧
     s.draws.deinitOk.get .p0 = true ∧ s.draws.initOk.get .p0 = false) ∧
    ({ awaiting 0x20 7 with draws := deinitFails } : State).draws.deinitOk.get .p0 = false ∧
    (let s : State := { s1 with draws := initFails }
     s.fatal = false ∧ s.params.Valid ∧ Routed s 0 .p0 ∧ s.draws.initOk.get .p0 = false ∧
     (⟨.hostToDevice, 1, 0, 0, 0⟩ : ClassRequest).wLength = 0) ∧
    (let s : State := { s1 with draws := deinitFails }
     s.fatal = false ∧ s.params.Valid ∧ Routed s 0 .p0 ∧ s.draws.deinitOk.get .p0 = false ∧
     (64 : Half).toNat ≤ s.params.ctrlBufCap ∧
     (⟨.deviceToHost, 1, 0, 0, 64⟩ : ClassRequest).dir = .deviceToHost) :=
  ⟨by decide, by decide, ⟨rfl, s1_valid, ⟨rfl, rfl⟩, rfl, rfl⟩,
    ⟨rfl, s1_valid, ⟨rfl, rfl⟩, rfl, by decide, rfl⟩⟩

/-- S1 after the data stage of `SET_LINE_CODING 80 25 00 00 00 00 08` on port 0. -/
def s1Set : State := { (s1.store .ctrlBuf .p0 0 payload9600).modPort .p0 (fun r => { r with lineCoding := lc9600 }) with
  chans := s1.chans.modify .p0 fun r => { r with uartCfg := cfg9600 }
  out := [.uartDeinit .p0, .uartInit .p0 cfg9600, .dmaStart .p0] }

/-- The same, with the next data stage armed. -/
def s1SetAgain : State :=
  { s1Set.modPort .p0 (fun r => { r with pendingCommand := some ⟨0x20, 7⟩ }) with
    ctrlRxArmed := some ⟨.p0, 7⟩
    out := s1Set.out ++ [.ctrlReceive .p0 7] }

/-- The same, after its data stage. -/
def s1SetTwice : State :=
  { s1Set with out := s1SetAgain.out ++ [.uartDeinit .p0, .uartInit .p0 cfg9600, .dmaStart .p0] }

theorem s1Set_reached : exec (.ctrlDataComplete payload9600) (awaiting 0x20 7) = .next s1Set := rfl

theorem witness_LineCodingIsParsedThenReconfigured :
    7 ≤ ({ s1 with params := { Config.reference with ctrlBufCap := 7 } } : State).params.ctrlBufCap ∧
    setLineCodingOp .p0 (s1.store .ctrlBuf .p0 0 payload9600) = .run s1Set := ⟨by decide, rfl⟩
theorem witness_LineCodingRoundTrip :
    (awaiting 0x20 7).params.Valid ∧ (awaiting 0x20 7).ctrlRxArmed = some { port := .p0, length := 7 } ∧
    payload9600.length = 7 ∧ ((awaiting 0x20 7).port .p0).pendingCommand = some ⟨0x20, 7⟩ ∧
    exec (.ctrlDataComplete payload9600) (awaiting 0x20 7) = .next s1Set ∧ s1Set.fatal = false ∧
    Routed s1Set 0 .p0 := ⟨by decide, rfl, rfl, rfl, s1Set_reached, rfl, rfl, rfl⟩
theorem witness_RepeatedSetLineCoding :
    exec (.ctrlDataComplete payload9600) (awaiting 0x20 7) = .next s1Set ∧ Routed s1Set 0 .p0 ∧
    exec (.setup ⟨.hostToDevice, .classType, 1, 0x20, 0, 0, 7⟩) s1Set = .next s1SetAgain ∧
    exec (.ctrlDataComplete payload9600) s1SetAgain = .next s1SetTwice ∧ s1SetTwice.fatal = false :=
  ⟨s1Set_reached, ⟨rfl, rfl⟩, rfl, rfl, rfl⟩
theorem witness_PortsAreIsolated :
    (lifecycle .timerTick = false ∧ Instr.timerTick ≠ .schedRun ∧ subject s1 .timerTick ≠ some .p0 ∧
      exec .timerTick s1 = .next { s1 with tickFlag := true }) ∧
    (subject s1 (.uartError .p0 1) ≠ some .p1) ∧ drain .p0 s1 = .run s1 := by
  refine ⟨⟨rfl, by decide, by decide, rfl⟩, by decide, rfl⟩
theorem witness_DataInCompleteIdlesItsPort :
    (s1.fatal = false ∧ s1.params.Valid ∧ s1.configured = true) ∧ State.reset.configured = false ∧
    ∀ p, (0x01 : Byte) ≠ s1.params.epIn.get p := ⟨⟨rfl, s1_valid, rfl⟩, rfl, fun p => by cases p <;> decide⟩

/-- S1 with port 0 sending. -/
def s1Busy : State := s1Port fun r => { r with txState := .busy, txLen := 2 }

/-- S1 with `RING_CAP = 8`, one byte received on line 0 and a tick. -/
def s1Ticked : State :=
  { (s1Ring8.modChan .p0 fun r => { r with rxRemaining := 7 }).store .rxRing .p0 0 [0x41] with tickFlag := true }

/-- The same after the drain. -/
def s1Drained : State :=
  { ((s1Ring8.modChan .p0 fun r => { r with rxRemaining := 7, rxReadCursor := 1 }).store .rxRing .p0 0
      [0x41]).store .txBuf .p0 0 [0x41] with
    ports := s1Ring8.ports.modify .p0 fun r => { r with txState := .busy, txLen := 1 }
    out := [.usbTransmit 0x81 [0x41]] }

theorem s1Drained_reached : exec .schedRun s1Ticked = .next s1Drained := rfl

theorem witness_TxStateChangesOnlyAsListed :
    (s1Ticked.params.Valid ∧ exec .schedRun s1Ticked = .next s1Drained ∧ (s1Ticked.port .p0).txState = .idle ∧
      (s1Drained.port .p0).txState = .busy) ∧
    (exec (.dataInComplete 0x81) s1Busy = .next (s1Port fun r => { r with txLen := 2 }) ∧
      (s1Busy.port .p0).txState = .busy ∧ s1Busy.configured = true) :=
  ⟨⟨by decide, s1Drained_reached, rfl, rfl⟩, rfl, rfl, rfl⟩
theorem witness_OutPacketIsStoredAndStarted :
    s1.fatal = false ∧ s1.params.Valid ∧ s1.configured = true ∧ (s1.port .p1).outArmed = true ∧
    (List.replicate 64 (0x55 : Byte)).length ≤ s1.params.maxPacket ∧ ([] : List Byte).length ≤ s1.params.maxPacket := by
  decide
theorem witness_DisabledEventsAreRefused :
    (s1.fatal = false ∧ s1.params.Valid ∧ Routed s1 0 .p0 ∧
      s1.params.ctrlBufCap < (⟨.deviceToHost, .classType, 1, 0x01, 0, 0, 65⟩ : SetupPacket).wLength.toNat) ∧
    (s1.ctrlRxArmed = none ∧ s1.fatal = false) ∧
    ((awaiting 0x20 7).ctrlRxArmed = some ⟨.p0, 7⟩ ∧ [(0x01 : Byte)].length ≠ 7) ∧
    State.reset.configured = false ∧
    ((s1Port fun r => { r with outArmed := false }).port .p0).outArmed = false ∧
    s1.params.maxPacket < (List.replicate 65 (0x00 : Byte)).length ∧
    (s1.chan .p0).uartTxBusy = false ∧
    (let s := s1Chan fun r => { r with uartTxBusy := true, uartTxLen := 2, uartTxPos := 2 }
     (s.chan .p0).uartTxBusy = true ∧ (s.chan .p0).uartTxLen ≤ (s.chan .p0).uartTxPos) ∧
    (let s := s1Chan fun r => { r with uartTxBusy := true, uartTxLen := 2, uartTxPos := 1 }
     (s.chan .p0).uartTxPos ≠ (s.chan .p0).uartTxLen) ∧
    s1.tickFlag = false ∧ (0x03 : Byte) ≠ 0x01 ∧ (0x03 : Byte) ≠ 0x02 :=
  ⟨⟨rfl, s1_valid, s1_routes.1, by decide⟩, by decide⟩
theorem witness_LineByteIsSent :
    let s := s1Chan fun r => { r with uartTxBusy := true, uartTxLen := 64, uartTxPos := 63 }
    s.fatal = false ∧ (s.chan .p0).uartTxBusy = true ∧ (s.chan .p0).uartTxPos < (s.chan .p0).uartTxLen ∧
    (s.chan .p0).uartTxLen ≤ s.params.maxPacket := by decide
theorem witness_LineCompletionRearms :
    let s := s1Chan fun r => { r with uartTxBusy := true, uartTxLen := 64, uartTxPos := 64 }
    s.fatal = false ∧ (s.chan .p0).uartTxBusy = true ∧ (s.chan .p0).uartTxPos = (s.chan .p0).uartTxLen := by decide

/-- S1 as CONFIGURE leaves it after reset, its thirteen actions emitted. -/
def s1Configured : State := { s1 with
  out := openActionsOf s1 .p0 ++ openActionsOf s1 .p1 ++ [.uartInit .p0 defaultFraming, .dmaStart .p0,
    .uartInit .p1 defaultFraming, .dmaStart .p1, .armReceive 0x01, .armReceive 0x03, .configResult true] }

/-- S1 with line 0 at the end of a packet. -/
def s1Sending : State :=
  (s1Port fun r => { r with outArmed := false }).modChan .p0 fun r => { r with uartTxBusy := true }

theorem witness_OutEndpointsAreArmedBy :
    (exec .configure State.reset = .next s1Configured ∧ State.reset.configured = false ∧
      s1Configured.configured = true) ∧
    (exec (.uartTxComplete .p0) s1Sending = .next { s1 with out := [.armReceive 0x01] } ∧
      (s1Sending.port .p0).outArmed = false ∧ (s1.port .p0).outArmed = true ∧
      Action.armReceive 0x01 ∈ newActions s1Sending { s1 with out := [.armReceive 0x01] }) :=
  ⟨⟨rfl, rfl, rfl⟩, rfl, rfl, rfl, by decide⟩
theorem witness_TransmitGuardIsPerPort :
    (1 ≤ 1 ∧ 1 ≤ s1.params.ringCap ∧ (s1.port .p0).txState = .idle) ∧
    (1 ≤ 256 ∧ 256 ≤ s1Busy.params.ringCap ∧ (s1Busy.port .p0).txState = .busy) := by decide
theorem witness_BusyTransferIsExclusive :
    s1Busy.params.Valid ∧ exec (.dataInComplete 0x83) s1Busy = .next s1Busy ∧ (s1Busy.port .p0).txState = .busy ∧
    Instr.dataInComplete 0x83 ≠ .dataInComplete (s1Busy.params.epIn.get .p0) ∧
    lifecycle (.dataInComplete 0x83) = false := ⟨by decide, rfl, rfl, by decide, rfl⟩

/-- S1 with a packet of one byte stored and its line started. -/
def s1Packet : State :=
  { (s1.store .rxBuf .p0 0 [0x5A]) with
    ports := s1.ports.modify .p0 fun r => { r with rxLength := 1, outArmed := false }
    chans := s1.chans.modify .p0 fun r => { r with uartTxBusy := true, uartTxLen := 1 }
    out := [.uartTxStart .p0 1] }

theorem witness_OutStreamIsExact :
    s1.params.Valid ∧ (s1.chan .p0).uartTxBusy = false ∧
    (∀ e ∈ [((Draws.allOk, .dataOutComplete 0x01 [0x5A]) : Event)], lifecycle e.2 = false) ∧
    runEvents [(Draws.allOk, .dataOutComplete 0x01 [0x5A])] s1 = some s1Packet :=
  ⟨s1_valid, rfl, by simp [lifecycle], rfl⟩
theorem witness_ReceivedByteIsStored :
    (State.reset.fatal = false ∧ (State.reset.chan .p0).dmaRunning = false) ∧
    (let s := s1Chan fun r => { r with rxRemaining := 1 }
     s.fatal = false ∧ (s.chan .p0).dmaRunning = true ∧ 1 ≤ (s.chan .p0).rxRemaining ∧
       (s.chan .p0).rxRemaining ≤ s.params.ringCap) := by decide
theorem witness_TickSetsTheFlag : s1.fatal = false := rfl
theorem witness_SchedRunWithoutPorts :
    let s : State := { State.reset with tickFlag := true }
    s.fatal = false ∧ s.tickFlag = true ∧ s.configured = false := by decide
theorem witness_DrainMovesUnreadBytes :
    (1 ≤ (s1.chan .p0).rxRemaining ∧ (s1.chan .p0).rxRemaining ≤ s1.params.ringCap ∧
      (s1.chan .p0).rxReadCursor < s1.params.ringCap ∧ unreadCount s1 .p0 = 0) ∧
    (let s := s1Ring8.modChan .p0 fun r => { r with rxRemaining := 1, rxReadCursor := 0 }
     1 ≤ (s.chan .p0).rxRemaining ∧ (s.chan .p0).rxRemaining ≤ s.params.ringCap ∧
     (s.chan .p0).rxReadCursor < s.params.ringCap ∧ unreadCount s .p0 = 7 ∧ (s.port .p0).txState = .idle) := by
  decide
theorem witness_WrappedDrainExample :
    let s := s1Chan fun r => { r with rxRemaining := 206, rxReadCursor := 200 }
    s.params.ringCap = 256 ∧ (s.chan .p0).rxReadCursor = 200 ∧ (s.chan .p0).rxRemaining = 206 ∧
    (s.port .p0).txState = .idle := by decide
theorem witness_SchedRunDrainsBothPorts :
    let s : State := { s1 with tickFlag := true }
    Invariant s ∧ s.fatal = false ∧ s.tickFlag = true ∧ s.configured = true :=
  ⟨{ params := s1_valid
     buffers := s1_invariant.buffers
     live := fun h =>
      { ringRegisters := (s1_invariant.live h).ringRegisters
        armedNotSending := (s1_invariant.live h).armedNotSending
        unconfiguredIdle := fun h => nomatch h
        busyLength := (s1_invariant.live h).busyLength
        sendingLength := (s1_invariant.live h).sendingLength
        lineRange := (s1_invariant.live h).lineRange
        armedPending := fun _ h => nomatch h
        armedRange := fun _ h => nomatch h
        configuredRunning := (s1_invariant.live h).configuredRunning
        framingCurrent := (s1_invariant.live h).framingCurrent } }, rfl, rfl, rfl⟩

/-- S1 with `RING_CAP = 8` and the bytes `41 42` received on line 0. -/
def s1Received : State :=
  (s1Ring8.modChan .p0 fun r => { r with rxRemaining := 6 }).store .rxRing .p0 0 [0x41, 0x42]

theorem witness_OverrunKeepsNewestBytes :
    s1Ring8.fatal = false ∧ (s1Ring8.chan .p0).dmaRunning = true ∧ 1 ≤ (s1Ring8.chan .p0).rxRemaining ∧
    (s1Ring8.chan .p0).rxRemaining ≤ s1Ring8.params.ringCap ∧
    (s1Ring8.chan .p0).rxReadCursor < s1Ring8.params.ringCap ∧
    runEvents ([(0x41 : Byte), 0x42].map fun b => (Draws.allOk, Instr.uartRxByte .p0 b)) s1Ring8 = some s1Received :=
  ⟨rfl, rfl, by decide, by decide, by decide, rfl⟩

/-- One byte received on line 0, a tick and a scheduler run. -/
def oneByteRun : List Event :=
  [(Draws.allOk, .uartRxByte .p0 0x41), (Draws.allOk, .timerTick), (Draws.allOk, .schedRun)]

/-- One step of a lossless run. -/
theorem losslessRun_cons {p : Port} {since : Nat} {d : Draws} {i : Instr} {rest : List Event} {s t : State}
    (hl : lifecycle i = false)
    (hs : i = .schedRun → since ≤ s.params.ringCap - 1 ∧ (unreadCount s p ≠ 0 → (s.port p).txState = .idle))
    (he : exec i { s with draws := d } = .next t) (hn : Action.uartDeinit p ∉ newActions s t)
    (hr : LosslessRun p (match (generalizing := false) i with
        | .schedRun => 0
        | .uartRxByte c _ => if c = p then since + 1 else since
        | _ => since) rest t) :
    LosslessRun p since ((d, i) :: rest) s := by
  refine ⟨hl, hs, ?_⟩
  rw [he]
  exact ⟨hn, hr⟩

/-- S1 with `RING_CAP = 8` and one byte received on line 0. -/
def s1One : State := (s1Ring8.modChan .p0 fun r => { r with rxRemaining := 7 }).store .rxRing .p0 0 [0x41]

theorem oneByteRun_lossless : LosslessRun .p0 0 oneByteRun s1Ring8 :=
  losslessRun_cons (t := s1One) rfl (by decide) rfl (by decide)
    (losslessRun_cons (t := s1Ticked) rfl (by decide) rfl (by decide)
      (losslessRun_cons (t := s1Drained) rfl (fun _ => ⟨by decide, fun _ => rfl⟩) rfl (by decide) trivial))

theorem witness_DrainReconstructsTheStream :
    s1Ring8.params.Valid ∧ s1Ring8.fatal = false ∧ s1Ring8.configured = true ∧
    (s1Ring8.chan .p0).dmaRunning = true ∧ (s1Ring8.chan .p0).rxRemaining = s1Ring8.params.ringCap ∧
    (s1Ring8.chan .p0).rxReadCursor = 0 ∧
    (∀ c, 1 ≤ (s1Ring8.chan c).rxRemaining ∧ (s1Ring8.chan c).rxRemaining ≤ s1Ring8.params.ringCap ∧
      (s1Ring8.chan c).rxReadCursor < s1Ring8.params.ringCap) ∧
    LosslessRun .p0 0 oneByteRun s1Ring8 ∧ runEvents oneByteRun s1Ring8 = some s1Drained ∧
    (oneByteRun = [(Draws.allOk, .uartRxByte .p0 0x41), (Draws.allOk, .timerTick)] ++ (Draws.allOk, .schedRun) :: [] ∧
      receivedBytes .p0 [] = []) :=
  ⟨by decide, rfl, rfl, rfl, rfl, rfl, fun c => by cases c <;> decide,
    oneByteRun_lossless, rfl, rfl, rfl⟩

theorem witness_LineErrorsAreFlagged : State.reset.fatal = false ∧ s1.fatal = false := ⟨rfl, rfl⟩
/-- S1 halted by the init of a data stage of `SET_LINE_CODING` on port 0. -/
def s1SetHalted : State :=
  { (awaiting 0x20 7).store .ctrlBuf .p0 0 payload9600 with
    fatal := true
    ctrlRxArmed := none
    draws := initFails
    ports := (awaiting 0x20 7).ports.modify .p0 fun r => { r with lineCoding := lc9600 }
    chans := s1.chans.modify .p0 fun r => { r with dmaRunning := false, uartCfg := cfg9600 }
    out := [.uartDeinit .p0, .uartInit .p0 cfg9600, .fatal .peripheralInitFailure]
    raised := [.peripheralInitFailure .p0] }

theorem s1SetHalted_reached :
    exec (.ctrlDataComplete payload9600) { awaiting 0x20 7 with draws := initFails } = .next s1SetHalted := rfl

theorem witness_ReconfigurationRestartsDma :
    let s := (awaiting 0x20 7).modChan .p0 fun r => { r with dmaRunning := false }
    exec (.ctrlDataComplete payload9600) s = .next s1Set ∧ (s.chan .p0).dmaRunning = false ∧
    (s1Set.chan .p0).dmaRunning = true ∧ Reconfigures s (.ctrlDataComplete payload9600) .p0 :=
  ⟨rfl, rfl, rfl, .inr ⟨payload9600, 7, 7, rfl, rfl, rfl⟩⟩
theorem witness_SetupReconfigures : Reconfigures s1 (.pathClassIn 1 0x20 0 0 7) .p0 :=
  .inl ⟨_, rfl, rfl, rfl, rfl, .inr rfl⟩

theorem witness_FlagsChangeOnlyAsListed :
    (exec .configure State.reset = .next s1Configured ∧ State.reset.configured = false ∧
      s1Configured.configured = true ∧ (State.reset.chan .p0).dmaRunning = false ∧
      (s1Configured.chan .p0).dmaRunning = true) ∧
    (exec .reset s1 = .next { State.reset with resets := 1 } ∧ s1.configured = true ∧
      (s1.chan .p0).dmaRunning = true) ∧
    (exec (.ctrlDataComplete payload9600) { awaiting 0x20 7 with draws := initFails } = .next s1SetHalted ∧
      ((awaiting 0x20 7).chan .p0).dmaRunning = true ∧ (s1SetHalted.chan .p0).dmaRunning = false) ∧
    (exec .timerTick s1 = .next { s1 with tickFlag := true } ∧ s1.tickFlag = false) ∧
    (exec .schedRun { State.reset with tickFlag := true } = .next State.reset ∧ State.reset.tickFlag = false) ∧
    (exec .reset halted = .next { State.reset with resets := 1 } ∧ halted.fatal = true) ∧
    (s1.fatal = false ∧ exec .deconfigure { s1 with draws := deinitFails } = .next { s1 with
      draws := deinitFails
      fatal := true
      chans := s1.chans.modify .p0 fun r => { r with dmaRunning := false }
      out := [.closeEndpoint 0x81, .closeEndpoint 0x01, .closeEndpoint 0x82, .closeEndpoint 0x83, .closeEndpoint 0x03,
        .closeEndpoint 0x84, .uartDeinit .p0, .fatal .peripheralInitFailure]
      raised := [.peripheralInitFailure .p0] }) ∧
    (exec (.dataOutComplete 0x01 [0x5A]) s1 = .next s1Packet ∧ (s1.chan .p0).uartTxBusy = false ∧
      (s1Packet.chan .p0).uartTxBusy = true ∧ (s1.port .p0).outArmed = true ∧
      (s1Packet.port .p0).outArmed = false) ∧
    (exec (.uartTxComplete .p0) s1Sending = .next { s1 with out := [.armReceive 0x01] } ∧
      (s1Sending.chan .p0).uartTxBusy = true) ∧
    (exec (.uartError .p0 0x01) s1 = .next { s1Chan (fun r => { r with errOverrun := true }) with
      out := [.diag .uartOverrun 0x00], raised := [.uartOverrun .p0] }) ∧
    (exec (.uartError .p0 0x02) s1 = .next { s1Chan (fun r => { r with errFraming := true }) with
      out := [.diag .uartFraming 0x00], raised := [.uartFraming .p0] }) ∧
    exec .reset (s1Chan fun r => { r with errOverrun := true, errFraming := true }) =
      .next { State.reset with resets := 1 } :=
  ⟨⟨rfl, rfl, rfl, rfl, rfl⟩, ⟨rfl, rfl, rfl⟩, ⟨s1SetHalted_reached, rfl, rfl⟩, ⟨rfl, rfl⟩, ⟨rfl, rfl⟩, ⟨rfl, rfl⟩,
    ⟨rfl, rfl⟩, ⟨rfl, rfl, rfl, rfl, rfl⟩, ⟨rfl, rfl⟩, rfl, rfl, rfl⟩
theorem witness_ControlStateGraph :
    (exec (.setup ⟨.hostToDevice, .classType, 1, 0x20, 0, 0, 7⟩) s1 =
        .next { awaiting 0x20 7 with out := [.ctrlReceive .p0 7] } ∧
      ctrlState s1 .p0 = .idle ∧ ctrlState (awaiting 0x20 7) .p0 = .awaitingData ∧
      OnPathOut ⟨.hostToDevice, .classType, 1, 0x20, 0, 0, 7⟩ ∧ routeIface s1 0 = some .p0) ∧
    (exec (.ctrlDataComplete payload9600) (awaiting 0x20 7) = .next s1Set ∧ ctrlState s1Set .p0 = .idle ∧
      s1Set.fatal = false) ∧
    exec .reset (awaiting 0x20 7) = .next { State.reset with resets := 1 } ∧
    (exec .configure State.reset = .next s1Configured ∧ State.reset.configured = false ∧
      State.reset.draws.allocOk = true) ∧
    (exec .deconfigure (awaiting 0x20 7) = .next { State.reset with
        out := closeActionsOf s1 .p0 ++ closeActionsOf s1 .p1 ++ [.uartDeinit .p0, .uartDeinit .p1] } ∧
      (awaiting 0x20 7).configured = true) :=
  ⟨⟨rfl, rfl, rfl, ⟨rfl, rfl, by decide⟩, rfl⟩, ⟨s1Set_reached, rfl, rfl⟩, rfl, ⟨rfl, rfl, rfl⟩, rfl, rfl⟩
theorem witness_BuffersHaveTheListedWriters :
    (exec .schedRun s1Ticked = .next s1Drained ∧ Instr.schedRun ≠ .reset ∧
      s1Drained.bufs.at0.txBuf ≠ s1Ticked.bufs.at0.txBuf) ∧
    (exec (.dataOutComplete 0x01 [0x5A]) s1 = .next s1Packet ∧ s1Packet.bufs.at0.rxBuf ≠ s1.bufs.at0.rxBuf) ∧
    (exec (.ctrlDataComplete payload9600) (awaiting 0x20 7) = .next s1Set ∧
      s1Set.bufs.at0.ctrlBuf ≠ (awaiting 0x20 7).bufs.at0.ctrlBuf) ∧
    (exec (.uartRxByte .p0 0x43) s1Received =
        .next ((s1Ring8.modChan .p0 fun r => { r with rxRemaining := 5 }).store .rxRing .p0 0 [0x41, 0x42, 0x43]) ∧
      2 = writeCursor s1Received.params.ringCap (s1Received.chan .p0).rxRemaining) :=
  ⟨⟨s1Drained_reached, by decide, by decide⟩, ⟨rfl, by decide⟩, ⟨s1Set_reached, by decide⟩, rfl, rfl⟩

end Sys2Proof.Tests
end

section
/-! The transmit state over one event (spec/10_state.md R26): which procedures keep every `tx_state`, what a
drain, DATA_IN_COMPLETE and the lifecycle events do to it, and from these what any one event can do to it. -/

namespace Sys2Proof.Machine

/-! ### The states a procedure can leave -/

/-- Every state in which a procedure returns or ends its step satisfies `Q`. -/
def Proc.Ensures (m : Proc) (Q : State → Prop) : Prop := ∀ t, m.outcome = .next t → Q t

@[simp] theorem Proc.ensures_run {s : State} {Q : State → Prop} : (Proc.run s).Ensures Q ↔ Q s := by
  simp [Proc.Ensures]

@[simp] theorem Proc.ensures_ended {s : State} {Q : State → Prop} : (Proc.ended s).Ensures Q ↔ Q s := by
  simp [Proc.Ensures]

@[simp] theorem Proc.ensures_fault (f : Fault) (Q : State → Prop) : (Proc.fault f).Ensures Q := by
  simp [Proc.Ensures]

@[simp] theorem Proc.ensures_refused (r : Refusal) (Q : State → Prop) : (Proc.refused r).Ensures Q := by
  simp [Proc.Ensures]

/-- Sequencing: `R` holds wherever the first part stops, and then the rest establishes `Q`; a step the first
part has ended must have `Q` from `R` already. -/
theorem Proc.Ensures.andThen {m : Proc} {k : State → Proc} {R Q : State → Prop} (hm : m.Ensures R)
    (hended : ∀ u, R u → Q u) (hk : ∀ u, R u → (k u).Ensures Q) : (m.andThen k).Ensures Q := by
  cases m with
  | run u => exact hk u (Proc.ensures_run.mp hm)
  | ended u => exact Proc.ensures_ended.mpr (hended u (Proc.ensures_ended.mp hm))
  | fault f => exact Proc.ensures_fault f Q
  | refused r => exact Proc.ensures_refused r Q

/-- A step that completes began alive, and its body completed. -/
theorem whenAlive_next {s t : State} {m : Proc} (h : (whenAlive s m).outcome = .next t) : m.outcome = .next t := by
  unfold whenAlive at h
  split at h
  · cases h
  · exact h

theorem Proc.Ensures.whenAlive {s : State} {m : Proc} {Q : State → Prop} (h : m.Ensures Q) :
    (whenAlive s m).Ensures Q := fun t ht => h t (whenAlive_next ht)

theorem memRead_ensures {b : Buffer} {p : Port} {i n : Nat} {s : State} {k : List Byte → Proc} {Q : State → Prop}
    (h : ∀ bytes, (k bytes).Ensures Q) : (memRead b p i n s k).Ensures Q := by
  unfold memRead
  split
  · exact h _
  · exact Proc.ensures_fault _ Q

theorem memWrite_ensures {b : Buffer} {p : Port} {i : Nat} {vs : List Byte} {s : State} {Q : State → Prop}
    (h : Q (s.store b p i vs)) : (memWrite b p i vs s).Ensures Q := by
  unfold memWrite
  split
  · exact Proc.ensures_run.mpr h
  · exact Proc.ensures_fault _ Q

/-! ### Procedures that keep every transmit state -/

/-- Every port has the same `tx_state` in both states. -/
def SameTxStates (s t : State) : Prop := ∀ p, (t.port p).txState = (s.port p).txState

theorem SameTxStates.refl (s : State) : SameTxStates s s := fun _ => rfl

theorem SameTxStates.trans {s t u : State} (h₁ : SameTxStates s t) (h₂ : SameTxStates t u) : SameTxStates s u :=
  fun p => (h₂ p).trans (h₁ p)

theorem SameTxStates.of_ports {s t : State} (h : t.ports = s.ports) : SameTxStates s t := fun p => by
  simp only [State.port, h]

theorem SameTxStates.modPort (s : State) (p : Port) {f : PortRegs → PortRegs}
    (hf : ∀ r, (f r).txState = r.txState) : SameTxStates s (s.modPort p f) := fun q => by
  rw [State.modPort_port]
  split
  · exact hf _
  · rfl

theorem setLineCodingReg_sameTxStates (p : Port) (lc : LineCoding) (s : State) :
    SameTxStates s (setLineCodingReg p lc s) := .modPort s p fun _ => rfl

theorem setRxLength_sameTxStates (p : Port) (n : Nat) (s : State) : SameTxStates s (setRxLength p n s) :=
  .modPort s p fun _ => rfl

theorem setOutArmed_sameTxStates (p : Port) (b : Bool) (s : State) : SameTxStates s (setOutArmed p b s) :=
  .modPort s p fun _ => rfl

theorem setPending_sameTxStates (p : Port) (c : Option PendingCommand) (s : State) :
    SameTxStates s (setPending p c s) := .modPort s p fun _ => rfl

/-- The procedure keeps every `tx_state`, from every state. -/
def KeepsTx (op : State → Proc) : Prop := ∀ s, (op s).Ensures (SameTxStates s)

/-- A procedure that keeps every `tx_state`, run after writes that kept them. -/
theorem KeepsTx.after {op : State → Proc} (h : KeepsTx op) {s u : State} (hu : SameTxStates s u) :
    (op u).Ensures (SameTxStates s) := fun t ht => hu.trans (h u t ht)

theorem Proc.Ensures.andThen_keepsTx {m : Proc} {k : State → Proc} {s : State}
    (hm : m.Ensures (SameTxStates s)) (hk : KeepsTx k) : (m.andThen k).Ensures (SameTxStates s) :=
  hm.andThen (fun _ hu => hu) fun _ hu => hk.after hu

/-- A procedure that only writes registers and records, and no `tx_state`. -/
theorem keepsTx_run {f : State → State} (h : ∀ s, SameTxStates s (f s)) : KeepsTx fun s => .run (f s) :=
  fun s => Proc.ensures_run.mpr (h s)

theorem memWrite_keepsTx (b : Buffer) (p : Port) (i : Nat) (vs : List Byte) : KeepsTx (memWrite b p i vs) :=
  fun s => memWrite_ensures (SameTxStates.refl s)

theorem reconfigure_keepsTx (c : Port) : KeepsTx (reconfigure c) := fun s => by
  rw [reconfigure_eq]
  split
  · split
    · exact Proc.ensures_run.mpr (.of_ports rfl)
    · exact Proc.ensures_ended.mpr (.of_ports rfl)
  · exact Proc.ensures_ended.mpr (.of_ports rfl)

theorem channelInit_keepsTx (c : Port) : KeepsTx (channelInit c) := fun s => by
  rw [channelInit_eq]
  split
  · exact Proc.ensures_run.mpr (.of_ports rfl)
  · exact Proc.ensures_ended.mpr (.of_ports rfl)

/-! ### The control requests -/

theorem noEffectOp_keepsTx : KeepsTx noEffectOp := keepsTx_run SameTxStates.refl

theorem setLineCodingOp_keepsTx (p : Port) : KeepsTx (setLineCodingOp p) := fun s =>
  memRead_ensures fun _ => (reconfigure_keepsTx p).after (setLineCodingReg_sameTxStates p _ s)

theorem getLineCodingOp_keepsTx (p : Port) : KeepsTx (getLineCodingOp p) := fun s =>
  memWrite_keepsTx .ctrlBuf p 0 _ s

theorem control_keepsTx (p : Port) (opcode : Byte) : KeepsTx (control p opcode) := fun s => by
  by_cases hset : opcode = 0x20
  · subst hset
    exact setLineCodingOp_keepsTx p s
  · by_cases hget : opcode = 0x21
    · subst hget
      exact getLineCodingOp_keepsTx p s
    · rw [control_other p hset hget]
      exact noEffectOp_keepsTx s

theorem classIn_keepsTx (p : Port) {handler : State → Proc} (length : Nat) (hh : KeepsTx handler) :
    KeepsTx (classIn p handler length) := fun s => by
  unfold classIn
  split
  · exact (hh s).andThen_keepsTx fun t => memRead_ensures fun _ => Proc.ensures_run.mpr (.of_ports rfl)
  · exact Proc.ensures_refused _ _

theorem classOut_keepsTx (p : Port) (opcode : Byte) (wLength : Half) : KeepsTx (classOut p opcode wLength) :=
  fun s => by
  unfold classOut
  split
  · exact Proc.ensures_run.mpr (setPending_sameTxStates p _ _)
  · exact Proc.ensures_refused _ _

theorem classPath_keepsTx (opcode : Byte) {handler : Port → State → Proc} (dir : Dir) (wLength : Half) (p : Port)
    (hh : ∀ q, KeepsTx (handler q)) : KeepsTx (classPath opcode handler dir wLength p) := fun s => by
  unfold classPath
  split
  · exact hh p s
  · cases dir with
    | deviceToHost => exact classIn_keepsTx p _ (hh p) s
    | hostToDevice => exact classOut_keepsTx p opcode wLength s

theorem getInterface_keepsTx : KeepsTx getInterface := keepsTx_run SameTxStates.refl

theorem otherRequest_keepsTx : KeepsTx otherRequest := keepsTx_run SameTxStates.refl

theorem setupStep_keepsTx (wIndex : Half) {body : Port → State → Proc} (hb : ∀ p, KeepsTx (body p)) :
    KeepsTx fun s => setupStep wIndex s body := fun s => by
  refine Proc.Ensures.whenAlive ?_
  dsimp only
  split
  · exact (hb _).after (.of_ports rfl)
  · exact Proc.ensures_ended.mpr (.of_ports rfl)

theorem classStep_keepsTx (opcode : Byte) {handler : Port → State → Proc} (r : ClassRequest)
    (hh : ∀ q, KeepsTx (handler q)) : KeepsTx (classStep opcode handler r) :=
  setupStep_keepsTx r.wIndex fun p => classPath_keepsTx opcode r.dir r.wLength p hh

theorem execSetup_sameTxStates {pkt : SetupPacket} {s t : State} (h : execSetup pkt s = .next t) :
    SameTxStates s t := by
  refine setupStep_keepsTx pkt.wIndex (fun p u => ?_) s t h
  split
  · exact classPath_keepsTx pkt.bRequest pkt.dir pkt.wLength p (fun q => control_keepsTx q pkt.bRequest) u
  · split
    · exact getInterface_keepsTx u
    · exact otherRequest_keepsTx u

theorem processPending_keepsTx (p : Port) : KeepsTx (processPending p) := fun s => by
  unfold processPending
  split
  · exact (control_keepsTx p _ s).andThen_keepsTx (keepsTx_run (setPending_sameTxStates p none))
  · exact Proc.ensures_run.mpr (SameTxStates.refl s)

theorem execCtrlDataComplete_sameTxStates {data : List Byte} {s t : State}
    (h : execCtrlDataComplete data s = .next t) : SameTxStates s t := by
  refine Proc.Ensures.whenAlive (Q := SameTxStates s) ?_ t h
  split
  · next a _ =>
    split
    · exact (memWrite_keepsTx .ctrlBuf a.port 0 data s).andThen_keepsTx fun u =>
        (processPending_keepsTx a.port).after (.of_ports rfl)
    · exact Proc.ensures_refused _ _
  · exact Proc.ensures_refused _ _

/-! ### The OUT path, the line and the ring -/

theorem receive_keepsTx (c : Port) (n : Nat) : KeepsTx (receive c n) := fun s => by
  rw [receive_eq]
  exact Proc.ensures_run.mpr (.of_ports rfl)

theorem execDataOutComplete_sameTxStates {ep : Byte} {data : List Byte} {s t : State}
    (h : execDataOutComplete ep data s = .next t) : SameTxStates s t := by
  refine Proc.Ensures.whenAlive (Q := SameTxStates s) ?_ t h
  split
  · exact Proc.ensures_refused _ _
  · next p _ =>
    split
    · split
      · exact (memWrite_keepsTx .rxBuf p 0 data s).andThen_keepsTx fun u => (receive_keepsTx p data.length).after
          ((setRxLength_sameTxStates p _ u).trans (setOutArmed_sameTxStates p false _))
      · exact Proc.ensures_refused _ _
    · exact Proc.ensures_refused _ _

theorem execUartTxByte_sameTxStates {c : Port} {s t : State} (h : execUartTxByte c s = .next t) :
    SameTxStates s t := by
  refine Proc.Ensures.whenAlive (Q := SameTxStates s) ?_ t h
  dsimp only
  split
  · split
    · split
      · exact Proc.ensures_run.mpr (.of_ports rfl)
      · exact Proc.ensures_fault _ _
    · exact Proc.ensures_refused _ _
  · exact Proc.ensures_refused _ _

theorem execUartTxComplete_sameTxStates {c : Port} {s t : State} (h : execUartTxComplete c s = .next t) :
    SameTxStates s t := by
  refine Proc.Ensures.whenAlive (Q := SameTxStates s) ?_ t h
  dsimp only
  split
  · split
    · exact Proc.ensures_run.mpr (setOutArmed_sameTxStates c true (setLineBusy c false s))
    · exact Proc.ensures_refused _ _
  · exact Proc.ensures_refused _ _

theorem dmaStore_keepsTx (c : Port) (b : Byte) : KeepsTx (dmaStore c b) := fun s => by
  unfold dmaStore
  dsimp only
  split
  · exact (memWrite_keepsTx .rxRing c _ [b] s).andThen_keepsTx fun _ => Proc.ensures_run.mpr (.of_ports rfl)
  · exact Proc.ensures_fault _ _

theorem execUartRxByte_sameTxStates {c : Port} {b : Byte} {s t : State} (h : execUartRxByte c b s = .next t) :
    SameTxStates s t := by
  refine Proc.Ensures.whenAlive (Q := SameTxStates s) ?_ t h
  split
  · exact dmaStore_keepsTx c b s
  · exact Proc.ensures_run.mpr (SameTxStates.refl s)

theorem execUartError_sameTxStates {c : Port} {kind : Byte} {s t : State} (h : execUartError c kind s = .next t) :
    SameTxStates s t := by
  refine Proc.Ensures.whenAlive (Q := SameTxStates s) ?_ t h
  split
  · exact Proc.ensures_run.mpr (.of_ports rfl)
  · exact Proc.ensures_run.mpr (.of_ports rfl)
  · exact Proc.ensures_refused _ _

theorem execTimerTick_sameTxStates {s t : State} (h : execTimerTick s = .next t) : SameTxStates s t :=
  have hbody : (Proc.run (setTick true s)).Ensures (SameTxStates s) := Proc.ensures_run.mpr (.of_ports rfl)
  hbody.whenAlive t h

/-! ### The scheduler -/

/-- From `s` to `t` a port's `tx_state` changes only to Busy, and each port for which it does has its transfer
among the actions emitted in between. -/
structure OnlyStartsTransfers (s t : State) : Prop where
  params : t.params = s.params
  started : ∃ acts, t.out = s.out ++ acts ∧ ∀ p, (t.port p).txState = (s.port p).txState ∨
    (t.port p).txState = .busy ∧ ∃ bytes, Action.usbTransmit (s.params.epIn.get p) bytes ∈ acts

/-- A change that emits nothing and keeps every `tx_state` starts no transfer. -/
theorem OnlyStartsTransfers.of_same {s t : State} (hp : t.params = s.params) (ho : t.out = s.out)
    (ht : SameTxStates s t) : OnlyStartsTransfers s t :=
  ⟨hp, [], by simp [ho], fun p => .inl (ht p)⟩

theorem OnlyStartsTransfers.trans {s t u : State} (h₁ : OnlyStartsTransfers s t) (h₂ : OnlyStartsTransfers t u) :
    OnlyStartsTransfers s u := by
  obtain ⟨hp₁, acts₁, ho₁, hs₁⟩ := h₁
  obtain ⟨hp₂, acts₂, ho₂, hs₂⟩ := h₂
  refine ⟨hp₂.trans hp₁, acts₁ ++ acts₂, by rw [ho₂, ho₁, List.append_assoc], fun p => ?_⟩
  rcases hs₂ p with hsame | ⟨hbusy, bytes, hmem⟩
  · rw [hsame]
    refine (hs₁ p).imp_right fun ⟨hbusy, bytes, hmem⟩ => ⟨hbusy, bytes, List.mem_append_left _ hmem⟩
  · exact .inr ⟨hbusy, bytes, List.mem_append_right _ (hp₁ ▸ hmem)⟩

/-- A port that becomes Busy has its transfer among the new actions. -/
theorem OnlyStartsTransfers.transmit_mem {s t : State} (h : OnlyStartsTransfers s t) {p : Port}
    (hs : (s.port p).txState = .idle) (ht : (t.port p).txState = .busy) :
    ∃ bytes, Action.usbTransmit (s.params.epIn.get p) bytes ∈ newActions s t := by
  obtain ⟨-, acts, ho, hst⟩ := h
  have hnew : newActions s t = acts := by simp [newActions, ho]
  rw [hnew]
  rcases hst p with hsame | ⟨-, hmem⟩
  · simp [hs, ht] at hsame
  · exact hmem

theorem OnlyStartsTransfers.busy_of_busy {s t : State} (h : OnlyStartsTransfers s t) {p : Port}
    (hs : (s.port p).txState = .busy) : (t.port p).txState = .busy := by
  obtain ⟨-, _, -, hst⟩ := h
  exact (hst p).elim (fun hsame => hsame.trans hs) And.left

/-- A drain with the ring registers out of their ranges faults. -/
theorem drain_outOfRange {p : Port} {s : State}
    (h : ¬(1 ≤ (s.chan p).rxRemaining ∧ (s.chan p).rxRemaining ≤ s.params.ringCap ∧
      (s.chan p).rxReadCursor < s.params.ringCap)) : drain p s = .fault (.ringRange p) := if_neg h

theorem drain_onlyStartsTransfers (p : Port) (s : State) : (drain p s).Ensures (OnlyStartsTransfers s) := by
  by_cases hr : 1 ≤ (s.chan p).rxRemaining ∧ (s.chan p).rxRemaining ≤ s.params.ringCap ∧
      (s.chan p).rxReadCursor < s.params.ringCap
  · obtain ⟨hpos, hcap, hcur⟩ := hr
    rw [drain_eq hpos hcap hcur]
    split
    · exact Proc.ensures_run.mpr (.of_same rfl rfl (.refl s))
    · split
      · exact Proc.ensures_run.mpr (.of_same rfl rfl (.of_ports rfl))
      · refine Proc.ensures_run.mpr ⟨rfl, _, rfl, fun q => ?_⟩
        by_cases hq : q = p
        · subst hq
          exact .inr ⟨by simp [State.port], _, List.mem_singleton_self _⟩
        · exact .inl (by simp [State.port, hq])
  · rw [drain_outOfRange hr]
    exact Proc.ensures_fault _ _

theorem execSchedRun_onlyStartsTransfers {s t : State} (h : execSchedRun s = .next t) :
    OnlyStartsTransfers s t := by
  have hcleared : OnlyStartsTransfers s (setTick false s) := .of_same rfl rfl (.refl s)
  refine Proc.Ensures.whenAlive (Q := OnlyStartsTransfers s) ?_ t h
  dsimp only
  split
  · split
    · have hfirst : (drain .p0 (setTick false s)).Ensures (OnlyStartsTransfers s) :=
        fun u hu => hcleared.trans (drain_onlyStartsTransfers .p0 _ u hu)
      exact hfirst.andThen (fun _ hu => hu) fun u hu v hv =>
        hu.trans (drain_onlyStartsTransfers .p1 u v hv)
    · exact Proc.ensures_run.mpr hcleared
  · exact Proc.ensures_refused _ _

/-! ### DATA_IN_COMPLETE -/

/-- Everything DATA_IN_COMPLETE can do (R160). -/
theorem execDataInComplete_next {ep : Byte} {s t : State} (h : execDataInComplete ep s = .next t) :
    (routeIn s ep = none ∧ t = s) ∨ ∃ q, routeIn s ep = some q ∧ t = setTxIdle q s := by
  have hbody := whenAlive_next h
  split at hbody
  · next q hq =>
    cases hbody
    exact .inr ⟨q, hq, rfl⟩
  · next hq =>
    cases hbody
    exact .inl ⟨hq, rfl⟩

/-! ### The lifecycle events -/

/-- Every port is Idle. -/
def AllTxIdle (s : State) : Prop := ∀ p, (s.port p).txState = .idle

/-- Ports at their creation values are Idle (R47, R225). -/
theorem AllTxIdle.of_initial {s : State} (h : s.ports = Two.both PortRegs.initial) : AllTxIdle s := fun p => by
  rw [State.port, h, Two.get_both]
  rfl

theorem AllTxIdle.of_same {s t : State} (h : AllTxIdle s) (ht : SameTxStates s t) : AllTxIdle t :=
  fun p => (ht p).trans (h p)

theorem execReset_allTxIdle {s t : State} (h : execReset s = .next t) : AllTxIdle t := by
  cases h
  exact .of_initial rfl

theorem portCreates_ports (s : State) :
    (portCreate .p1 (portCreate .p0 s)).ports = Two.both PortRegs.initial := rfl

/-- Arming both OUT endpoints touches no `tx_state`. -/
theorem armOuts_sameTxStates (s : State) : SameTxStates s (armOut .p1 (armOut .p0 s)) :=
  (setOutArmed_sameTxStates .p0 true s).trans (setOutArmed_sameTxStates .p1 true (armOut .p0 s))

/-- The part of CONFIGURE after the ports are created. -/
theorem configureRest_keepsTx : KeepsTx fun s =>
    ((channelInit .p0 s).andThen (channelInit .p1)).andThen fun t =>
      .run (emit (.configResult true) (setConfigured true (armOut .p1 (armOut .p0 t)))) :=
  fun s => ((channelInit_keepsTx .p0 s).andThen_keepsTx (channelInit_keepsTx .p1)).andThen_keepsTx
    fun t => Proc.ensures_run.mpr (armOuts_sameTxStates t)

/-- What CONFIGURE and DECONFIGURE do to the transmit states: `configured` and every `tx_state` stay as they
are, or every port is left Idle. -/
def KeptOrAllIdle (s t : State) : Prop := (t.configured = s.configured ∧ SameTxStates s t) ∨ AllTxIdle t

theorem execConfigure_keptOrAllIdle {s t : State} (h : execConfigure s = .next t) : KeptOrAllIdle s t := by
  refine Proc.Ensures.whenAlive (Q := KeptOrAllIdle s) ?_ t h
  split
  · exact Proc.ensures_run.mpr (.inl ⟨rfl, .refl s⟩)
  · split
    · have hcreated : AllTxIdle (portCreate .p1 (portCreate .p0 (openAll s))) := .of_initial (portCreates_ports _)
      exact fun u hu => .inr (hcreated.of_same (configureRest_keepsTx _ u hu))
    · exact Proc.ensures_ended.mpr (.inl ⟨rfl, .of_ports rfl⟩)

theorem channelDeinit_ensures (c : Port) (s : State) :
    (channelDeinit c s).Ensures fun t => t.configured = s.configured ∧ SameTxStates s t := by
  rw [channelDeinit_eq]
  dsimp only
  split
  · exact Proc.ensures_run.mpr ⟨rfl, .of_ports rfl⟩
  · exact Proc.ensures_ended.mpr ⟨rfl, .of_ports rfl⟩

theorem execDeconfigure_keptOrAllIdle {s t : State} (h : execDeconfigure s = .next t) : KeptOrAllIdle s t := by
  refine Proc.Ensures.whenAlive (Q := KeptOrAllIdle s) ?_ t h
  split
  · have hboth : ((channelDeinit .p0 (closePort .p1 (closePort .p0 s))).andThen (channelDeinit .p1)).Ensures
        fun t => t.configured = s.configured ∧ SameTxStates s t := by
      rw [closePorts_eq]
      exact (channelDeinit_ensures .p0 _).andThen (fun _ hu => hu) fun u ⟨hc, hu⟩ v hv =>
        have ⟨hc', hv'⟩ := channelDeinit_ensures .p1 u v hv
        ⟨hc'.trans hc, hu.trans hv'⟩
    exact hboth.andThen (fun _ hu => .inl hu) fun _ _ => Proc.ensures_run.mpr (.inr (.of_initial rfl))
  · exact Proc.ensures_run.mpr (.inl ⟨rfl, .refl s⟩)

/-! ### Any event -/

/-- Everything one event can do to the transmit states: keep them all, start transfers (SCHED_RUN), make the
owner of a completed endpoint Idle, or, for a lifecycle event, leave every port Idle. -/
theorem exec_txStates_cases {i : Instr} {s t : State} (hv : s.params.Valid) (h : exec i s = .next t) :
    SameTxStates s t ∨ (i = .schedRun ∧ OnlyStartsTransfers s t) ∨
      (∃ q, i = .dataInComplete (s.params.epIn.get q) ∧ t = setTxIdle q s) ∨
      (lifecycle i = true ∧ AllTxIdle t) := by
  cases i with
  | reset => exact .inr (.inr (.inr ⟨rfl, execReset_allTxIdle h⟩))
  | configure =>
    rcases execConfigure_keptOrAllIdle h with ⟨-, hsame⟩ | hidle
    · exact .inl hsame
    · exact .inr (.inr (.inr ⟨rfl, hidle⟩))
  | deconfigure =>
    rcases execDeconfigure_keptOrAllIdle h with ⟨-, hsame⟩ | hidle
    · exact .inl hsame
    · exact .inr (.inr (.inr ⟨rfl, hidle⟩))
  | schedRun => exact .inr (.inl ⟨rfl, execSchedRun_onlyStartsTransfers h⟩)
  | dataInComplete ep =>
    rcases execDataInComplete_next h with ⟨-, rfl⟩ | ⟨q, hq, rfl⟩
    · exact .inl (.refl _)
    · obtain ⟨-, rfl⟩ := (routeIn_eq_some hv).mp hq
      exact .inr (.inr (.inl ⟨q, rfl, rfl⟩))
  | setup pkt => exact .inl (execSetup_sameTxStates h)
  | ctrlDataComplete data => exact .inl (execCtrlDataComplete_sameTxStates h)
  | dataOutComplete ep data => exact .inl (execDataOutComplete_sameTxStates h)
  | uartRxByte c b => exact .inl (execUartRxByte_sameTxStates h)
  | uartTxByte c => exact .inl (execUartTxByte_sameTxStates h)
  | uartTxComplete c => exact .inl (execUartTxComplete_sameTxStates h)
  | uartError c kind => exact .inl (execUartError_sameTxStates h)
  | timerTick => exact .inl (execTimerTick_sameTxStates h)
  | pathClassNodata dir recipient bRequest wValue wIndex =>
    exact .inl (setupStep_keepsTx wIndex (fun p => control_keepsTx p bRequest) s t h)
  | pathClassIn recipient bRequest wValue wIndex wLength =>
    exact .inl (setupStep_keepsTx wIndex (fun p => classIn_keepsTx p _ (control_keepsTx p bRequest)) s t h)
  | pathClassOut recipient bRequest wValue wIndex wLength =>
    exact .inl (setupStep_keepsTx wIndex (fun p => classOut_keepsTx p bRequest wLength) s t h)
  | pathStdGetInterface dir recipient wValue wIndex wLength =>
    exact .inl (setupStep_keepsTx wIndex (fun _ => getInterface_keepsTx) s t h)
  | pathOther pkt => exact .inl (setupStep_keepsTx pkt.wIndex (fun _ => otherRequest_keepsTx) s t h)
  | setLineCoding r => exact .inl (classStep_keepsTx 0x20 r setLineCodingOp_keepsTx s t h)
  | getLineCoding r => exact .inl (classStep_keepsTx 0x21 r getLineCodingOp_keepsTx s t h)
  | sendEncapsulatedCommand r => exact .inl (classStep_keepsTx 0x00 r (fun _ => noEffectOp_keepsTx) s t h)
  | getEncapsulatedResponse r => exact .inl (classStep_keepsTx 0x01 r (fun _ => noEffectOp_keepsTx) s t h)
  | setCommFeature r => exact .inl (classStep_keepsTx 0x02 r (fun _ => noEffectOp_keepsTx) s t h)
  | getCommFeature r => exact .inl (classStep_keepsTx 0x03 r (fun _ => noEffectOp_keepsTx) s t h)
  | clearCommFeature r => exact .inl (classStep_keepsTx 0x04 r (fun _ => noEffectOp_keepsTx) s t h)
  | setControlLineState r => exact .inl (classStep_keepsTx 0x22 r (fun _ => noEffectOp_keepsTx) s t h)
  | sendBreak r => exact .inl (classStep_keepsTx 0x23 r (fun _ => noEffectOp_keepsTx) s t h)
  | classUnknown bRequest r => exact .inl (classStep_keepsTx bRequest r (fun _ => noEffectOp_keepsTx) s t h)

theorem exec_becomesBusy {i : Instr} {s t : State} {p : Port} (hv : s.params.Valid) (h : exec i s = .next t)
    (hs : (s.port p).txState = .idle) (ht : (t.port p).txState = .busy) :
    i = .schedRun ∧ ∃ bytes, Action.usbTransmit (s.params.epIn.get p) bytes ∈ newActions s t := by
  rcases exec_txStates_cases hv h with hsame | ⟨hi, hstart⟩ | ⟨q, -, rfl⟩ | ⟨-, hidle⟩
  · simp [hsame p, hs] at ht
  · exact ⟨hi, hstart.transmit_mem hs ht⟩
  · by_cases hq : p = q
    · subst hq
      simp at ht
    · simp [hq, hs] at ht
  · simp [hidle p] at ht

theorem exec_becomesIdle {i : Instr} {s t : State} {p : Port} (hv : s.params.Valid) (h : exec i s = .next t)
    (hs : (s.port p).txState = .busy) (ht : (t.port p).txState = .idle) :
    i = .dataInComplete (s.params.epIn.get p) ∨ lifecycle i = true := by
  rcases exec_txStates_cases hv h with hsame | ⟨-, hstart⟩ | ⟨q, hi, rfl⟩ | ⟨hl, -⟩
  · simp [hsame p, hs] at ht
  · simp [hstart.busy_of_busy hs] at ht
  · by_cases hq : p = q
    · subst hq
      exact .inl hi
    · simp [hq, hs] at ht
  · exact .inr hl

/-- DATA_IN_COMPLETE on a configured port's own endpoint leaves the port Idle (R160, R161). -/
theorem exec_dataInComplete_idle {s t : State} {p : Port} (hv : s.params.Valid)
    (h : exec (.dataInComplete (s.params.epIn.get p)) s = .next t) (hc : s.configured = true) :
    (t.port p).txState = .idle := by
  have hroute : routeIn s (s.params.epIn.get p) = some p := (routeIn_eq_some hv).mpr ⟨hc, rfl⟩
  rcases execDataInComplete_next h with ⟨hnone, -⟩ | ⟨q, hq, rfl⟩
  · simp [hroute] at hnone
  · obtain rfl : p = q := Option.some.inj (hroute.symm.trans hq)
    simp

end Sys2Proof.Machine

namespace Sys2Proof.Proofs

open Sys2Proof.Machine

/-- Settles O40: the case analysis `exec_txStates_cases` of one event's effect on the transmit states gives both
"only" directions, and the events that leave a port Idle are read off their own effects. -/
theorem txStateChangesOnlyAsListed : Obligations.TxStateChangesOnlyAsListed := by
  intro i s t p hv h
  refine ⟨exec_becomesBusy hv h, exec_becomesIdle hv h, ?dataIn, ?reset, ?configure, ?deconfigure⟩
  case dataIn =>
    rintro rfl hc
    exact exec_dataInComplete_idle hv h hc
  case reset =>
    rintro rfl
    exact execReset_allTxIdle h p
  case configure =>
    rintro rfl hs ht
    rcases execConfigure_keptOrAllIdle h with ⟨hc, -⟩ | hidle
    · simp [hs, ht] at hc
    · exact hidle p
  case deconfigure =>
    rintro rfl hs ht
    rcases execDeconfigure_keptOrAllIdle h with ⟨hc, -⟩ | hidle
    · simp [hs, ht] at hc
    · exact hidle p

end Sys2Proof.Proofs
end

section
/-! The byte order of a 32-bit field (R8) and, from it, the line-coding payload of spec/30_encoding.md R104. -/

namespace Sys2Proof

theorem toNat_byteOf {w : Nat} (v : BitVec w) (k : Nat) : (byteOf v k).toNat = v.toNat / 2 ^ (8 * k) % 256 := by
  simp [byteOf, Nat.shiftRight_eq_div_pow]

/-- Joining two words is adding the high one at the low one's width. -/
theorem toNat_append_eq_add {v w : Nat} (hi : BitVec v) (lo : BitVec w) :
    (hi ++ lo).toNat = lo.toNat + 2 ^ w * hi.toNat := by
  rw [BitVec.toNat_append, Nat.shiftLeft_eq, Nat.mul_comm, ← Nat.two_pow_add_eq_or_of_lt lo.isLt, Nat.add_comm]

theorem toNat_le32 (b0 b1 b2 b3 : Byte) :
    (le32 b0 b1 b2 b3).toNat = b0.toNat + 256 * b1.toNat + 65536 * b2.toNat + 16777216 * b3.toNat := by
  simp only [le32, toNat_append_eq_add]
  omega

/-- `bytes_le32` reads back the four bytes of `le32` (R8): each is a digit in base 256 of the value. -/
theorem bytes_le32 (b0 b1 b2 b3 : Byte) :
    byteOf (le32 b0 b1 b2 b3) 0 = b0 ∧ byteOf (le32 b0 b1 b2 b3) 1 = b1 ∧
    byteOf (le32 b0 b1 b2 b3) 2 = b2 ∧ byteOf (le32 b0 b1 b2 b3) 3 = b3 := by
  have h0 := b0.isLt
  have h1 := b1.isLt
  have h2 := b2.isLt
  have h3 := b3.isLt
  refine ⟨?_, ?_, ?_, ?_⟩ <;>
  · apply BitVec.eq_of_toNat_eq
    rw [toNat_byteOf, toNat_le32]
    omega

end Sys2Proof

namespace Sys2Proof.Machine

/-- The payload of a line coding taken from seven bytes is those bytes (R104). -/
theorem lineCodingBytes_ofBytes (b0 b1 b2 b3 b4 b5 b6 : Byte) :
    lineCodingBytes (lineCodingOfBytes b0 b1 b2 b3 b4 b5 b6) = [b0, b1, b2, b3, b4, b5, b6] := by
  obtain ⟨h0, h1, h2, h3⟩ := bytes_le32 b0 b1 b2 b3
  simp only [lineCodingBytes, lineCodingOfBytes, h0, h1, h2, h3]

end Sys2Proof.Machine

namespace Sys2Proof.Proofs

open Sys2Proof.Machine

/-- Settles O29: the baud rate is the value of `le32`, the three codes are kept by field, and the bytes read back
because `bytes_le32` undoes `le32`. -/
theorem lineCodingLayout : Obligations.LineCodingLayout := by
  intro b0 b1 b2 b3 b4 b5 b6
  exact ⟨toNat_le32 b0 b1 b2 b3, rfl, rfl, rfl, lineCodingBytes_ofBytes b0 b1 b2 b3 b4 b5 b6⟩

end Sys2Proof.Proofs
end

section
/-! The control requests (spec/40_control_requests.md): a class request routed to a port, on each of its paths; the
requests of P5; the data stage; and what a reconfiguration leaves unchanged. From these the statements about P3
(R125), the requests without effect (R130, R137) and `SetLineCoding` (R133). -/

namespace Sys2Proof.Machine

/-! ### Class requests by path -/

section ClassPaths

variable {s : State} {p : Port} {opcode : Byte} {handler : Port → State → Proc} {dir : Dir} {wLength : Half}

theorem classPath_noData (h : wLength = 0) : classPath opcode handler dir wLength p s = handler p s := by
  simp [classPath, classNoData, h]

theorem classPath_in (h : wLength ≠ 0) :
    classPath opcode handler .deviceToHost wLength p s = classIn p (handler p) wLength.toNat s := by
  simp only [classPath, if_neg h, lengthOf]

theorem classPath_out (h : wLength ≠ 0) :
    classPath opcode handler .hostToDevice wLength p s = classOut p opcode wLength s := by
  simp only [classPath, if_neg h]

/-- P3 after the head of a SETUP step. -/
theorem classOut_cleared (h : wLength.toNat ≤ s.params.ctrlBufCap) :
    classOut p opcode wLength (setCtrlRxArmed none s) = .run (armedState s p opcode wLength) :=
  (classOut_eq p opcode wLength _).trans (if_pos h)

end ClassPaths

/-! ### Class requests routed to a port -/

section RoutedRequests

variable {s : State} {p : Port} {opcode : Byte} {handler : Port → State → Proc} {r : ClassRequest}

/-- P1: the request's handler, after the armed receive is cleared (R126). -/
theorem classStep_noData (hf : s.fatal = false) (hv : s.params.Valid) (hr : Routed s r.wIndex p)
    (h0 : r.wLength = 0) : classStep opcode handler r s = handler p (setCtrlRxArmed none s) := by
  rw [classStep, setupStep_routed hf hv hr, classPath_noData h0]

/-- P2: the request's handler, then the bytes of the control buffer (R124). -/
theorem classStep_in (hf : s.fatal = false) (hv : s.params.Valid) (hr : Routed s r.wIndex p)
    (h0 : r.wLength ≠ 0) (hd : r.dir = .deviceToHost) :
    classStep opcode handler r s = classIn p (handler p) r.wLength.toNat (setCtrlRxArmed none s) := by
  rw [classStep, setupStep_routed hf hv hr, hd, classPath_in h0]

/-- P3: a data stage armed, whatever the handler (R125). -/
theorem classStep_out (hf : s.fatal = false) (hv : s.params.Valid) (hr : Routed s r.wIndex p)
    (h0 : r.wLength ≠ 0) (hlen : r.wLength.toNat ≤ s.params.ctrlBufCap) (hd : r.dir = .hostToDevice) :
    classStep opcode handler r s = .run (armedState s p opcode r.wLength) := by
  rw [classStep, setupStep_routed hf hv hr, hd, classPath_out h0, classOut_cleared hlen]

/-- P2 with a handler without effect. -/
theorem classStep_in_noEffect (hf : s.fatal = false) (hv : s.params.Valid) (hr : Routed s r.wIndex p)
    (h0 : r.wLength ≠ 0) (hlen : r.wLength.toNat ≤ s.params.ctrlBufCap) (hd : r.dir = .deviceToHost) :
    classStep opcode (fun _ => noEffectOp) r s = .run (sentState s p r.wLength) :=
  (classStep_in hf hv hr h0 hd).trans (classIn_eq (s := setCtrlRxArmed none s) hlen rfl rfl)

end RoutedRequests

/-! ### SETUP by the kind of its request -/

/-- A class request as SETUP is the step of its class row, with the handler that `Control` selects. -/
theorem exec_setup_class {pkt : SetupPacket} (h : pkt.reqType = .classType) (s : State) :
    exec (.setup pkt) s =
      (classStep pkt.bRequest (fun q => control q pkt.bRequest) pkt.classRequest s).outcome := by
  simp only [exec, execSetup, h, if_true]
  rfl

/-- A request that is neither of class type nor `GET_INTERFACE` takes P5. -/
theorem exec_setup_other {pkt : SetupPacket} (hc : pkt.reqType ≠ .classType)
    (hg : ¬(pkt.reqType = .standard ∧ pkt.bRequest = 0x0A)) (s : State) :
    exec (.setup pkt) s = exec (.pathOther pkt) s := by
  simp only [exec, execSetup, execPathOther, if_neg hc, if_neg hg]

/-- P5 routed: only the armed receive is cleared (R121, R130). -/
theorem exec_pathOther_routed {s : State} {pkt : SetupPacket} {p : Port} (hf : s.fatal = false)
    (hv : s.params.Valid) (hr : Routed s pkt.wIndex p) :
    exec (.pathOther pkt) s = .next { s with ctrlRxArmed := none } := by
  simp only [exec, execPathOther, setupStep_routed hf hv hr]
  rfl

/-- P3 by its path's row. -/
theorem exec_pathClassOut_routed {s : State} {recipient : BitVec 5} {bRequest : Byte} {wValue wIndex wLength : Half}
    {p : Port} (hf : s.fatal = false) (hv : s.params.Valid) (hr : Routed s wIndex p)
    (hlen : wLength.toNat ≤ s.params.ctrlBufCap) :
    exec (.pathClassOut recipient bRequest wValue wIndex wLength) s = .next (armedState s p bRequest wLength) := by
  simp only [exec, execPathClassOut, setupStep_routed hf hv hr, classOut_cleared hlen, Proc.outcome_of_run]

theorem ctrlState_armedState (s : State) (p : Port) (opcode : Byte) (wLength : Half) :
    ctrlState (armedState s p opcode wLength) p = .awaitingData := by
  simp [ctrlState, armedState, State.port]

/-- Each of the seven rows of R137 is a class step with its own code and the handler without effect. -/
theorem exec_noEffectRequest {r : ClassRequest} {request : Byte × Instr} (h : request ∈ noEffectRequests r)
    (s : State) : exec request.2 s = (classStep request.1 (fun _ => noEffectOp) r s).outcome := by
  simp only [noEffectRequests, List.mem_cons, List.not_mem_nil, or_false] at h
  rcases h with rfl | rfl | rfl | rfl | rfl | rfl | rfl <;> rfl

/-! ### The data stage -/

/-- A store writes no byte outside its run. -/
theorem SameBytesOutside.store (s : State) (b : Buffer) (p : Port) (i : Nat) (vs : List Byte) :
    SameBytesOutside s (s.store b p i vs) b p i vs.length := fun b' q j h => by
  rw [State.store_byteAt, dif_neg h]

/-- The armed data stage: its bytes are stored, the receive is done, the pending command runs (R127). -/
theorem exec_ctrlDataComplete_armed {s : State} {p : Port} {data : List Byte} (hf : s.fatal = false)
    (harmed : s.ctrlRxArmed = some { port := p, length := data.length })
    (hlen : data.length ≤ s.params.ctrlBufCap) :
    exec (.ctrlDataComplete data) s =
      (processPending p (setCtrlRxArmed none (s.store .ctrlBuf p 0 data))).outcome := by
  have hrange : 0 + data.length ≤ s.params.capacity .ctrlBuf := by simpa [Params.capacity] using hlen
  simp [exec, execCtrlDataComplete, hf, harmed, memWrite_inRange hrange]

/-- The state the data stage of a command without effect leaves: its bytes in the control buffer, and the port no
longer waiting (R127, R128, R137). -/
def discardedState (s : State) (p : Port) (data : List Byte) : State :=
  setPending p none (setCtrlRxArmed none (s.store .ctrlBuf p 0 data))

theorem exec_ctrlDataComplete_noEffect {s : State} {p : Port} {data : List Byte} {c : PendingCommand}
    (hf : s.fatal = false) (harmed : s.ctrlRxArmed = some { port := p, length := data.length })
    (hlen : data.length ≤ s.params.ctrlBufCap) (hpend : (s.port p).pendingCommand = some c)
    (hset : c.opcode ≠ 0x20) (hget : c.opcode ≠ 0x21) :
    exec (.ctrlDataComplete data) s = .next (discardedState s p data) := by
  have hstored : ((setCtrlRxArmed none (s.store .ctrlBuf p 0 data)).port p).pendingCommand = some c := hpend
  rw [exec_ctrlDataComplete_armed hf harmed hlen, processPending_some hstored, control_other p hset hget]
  rfl

theorem discardedState_bytesAt (s : State) (p : Port) (data : List Byte) :
    (discardedState s p data).bytesAt .ctrlBuf p 0 data.length = data :=
  s.store_bytesAt_same .ctrlBuf p 0 data

theorem discardedState_sameBytesOutside (s : State) (p : Port) (data : List Byte) :
    SameBytesOutside s (discardedState s p data) .ctrlBuf p 0 data.length :=
  SameBytesOutside.store s .ctrlBuf p 0 data

/-! ### `SetLineCoding` -/

/-- Seven bytes kept as a line coding read back verbatim (R104). -/
theorem lineCodingBytes_ofList {bytes : List Byte} (h : bytes.length = 7) :
    lineCodingBytes (lineCodingOfList bytes) = bytes := by
  match bytes, h with
  | [b0, b1, b2, b3, b4, b5, b6], _ => exact lineCodingBytes_ofBytes b0 b1 b2 b3 b4 b5 b6

/-- Of the registers and buffers, at most the ring registers and the framing of channel `c` differ. -/
structure OnlyReconfigures (c : Port) (s t : State) : Prop where
  ports : t.ports = s.ports
  chan : t.chan c = { s.chan c with
    rxRemaining := (t.chan c).rxRemaining, rxReadCursor := (t.chan c).rxReadCursor,
    dmaRunning := (t.chan c).dmaRunning, uartCfg := (t.chan c).uartCfg }
  otherChan : t.chan c.other = s.chan c.other
  bytes : SameBytes s t

/-- A write to channel `c` that touches only those registers, with whatever is halted, emitted and raised. -/
theorem OnlyReconfigures.of_modify (c : Port) (s : State) {f : ChanRegs → ChanRegs} {halted : Bool}
    {actions : List Action} {errors : List RaisedError}
    (hf : ∀ r, f r = { r with
      rxRemaining := (f r).rxRemaining, rxReadCursor := (f r).rxReadCursor, dmaRunning := (f r).dmaRunning,
      uartCfg := (f r).uartCfg }) :
    OnlyReconfigures c s
      { s with fatal := halted, chans := s.chans.modify c f, out := actions, raised := errors } where
  ports := rfl
  chan := by
    simp only [State.chan, Two.get_modify_same]
    exact hf _
  otherChan := Two.get_modify_ne _ _ (Port.other_ne c)
  bytes _ _ _ := rfl

/-- A reconfiguration, halted by a failing answer or not, touches nothing else (R133 (d), (e)). -/
theorem reconfigure_onlyReconfigures (c : Port) (s : State) :
    (reconfigure c s).Ensures (OnlyReconfigures c s) := by
  simp only [reconfigure_eq, reconfiguredState, haltedState]
  split
  · split
    · exact Proc.ensures_run.mpr (.of_modify c s fun _ => rfl)
    · exact Proc.ensures_ended.mpr (.of_modify c s fun _ => rfl)
  · exact Proc.ensures_ended.mpr (.of_modify c s fun _ => rfl)

end Sys2Proof.Machine

namespace Sys2Proof.Proofs

open Sys2Proof.Machine

/-- Settles O23: as SETUP the request is the class step of its packet, which on P3 arms whatever the handler; by its
path's row it is P3 itself. -/
theorem classOutArmsDataStage : Obligations.ClassOutArmsDataStage := by
  intro s pkt p hf hv hr hclass hdir h0 hlen
  refine ⟨fun i hi => ?_, ctrlState_armedState s p pkt.bRequest pkt.wLength⟩
  rcases List.mem_pair.mp hi with rfl | rfl
  · have harm := classStep_out (r := pkt.classRequest) (opcode := pkt.bRequest)
      (handler := fun q => control q pkt.bRequest) hf hv hr h0 hlen hdir
    rw [exec_setup_class hclass, harm]
    rfl
  · exact exec_pathClassOut_routed hf hv hr hlen

/-- Settles O24: each of the seven rows is a class step with the handler without effect, taken path by path; the
data stage of its code runs `Control`, which has no arm for that code. -/
theorem noEffectRequestsFollowTheirPath : Obligations.NoEffectRequestsFollowTheirPath := by
  intro s p hf hv
  constructor
  · intro r hr request hmem
    rw [exec_noEffectRequest hmem]
    refine ⟨fun h0 => ?noData, fun h0 hlen hdir => ?inData, fun h0 hlen hdir => ?outData⟩
    case noData =>
      rw [classStep_noData hf hv hr h0]
      rfl
    case inData => rw [classStep_in_noEffect hf hv hr h0 hlen hdir, Proc.outcome_of_run]
    case outData => rw [classStep_out hf hv hr h0 hlen hdir, Proc.outcome_of_run]
  · intro data c harmed hlen hpend hcode
    have hset : c.opcode ≠ 0x20 := ne_of_mem_of_not_mem hcode (by decide)
    have hget : c.opcode ≠ 0x21 := ne_of_mem_of_not_mem hcode (by decide)
    exact ⟨discardedState s p data, exec_ctrlDataComplete_noEffect hf harmed hlen hpend hset hget,
      discardedState_bytesAt s p data, discardedState_sameBytesOutside s p data, rfl, rfl, rfl, ⟨rfl, rfl, rfl⟩,
      ⟨rfl, rfl, rfl, rfl⟩, (List.append_nil _).symm, (List.append_nil _).symm⟩

/-- Settles O28: the line coding of the seven bytes read reads back as them, and the frame is that of the
reconfiguration run after it is stored. -/
theorem lineCodingIsParsedThenReconfigured : Obligations.LineCodingIsParsedThenReconfigured := by
  intro s p hcap
  refine ⟨lineCodingOfList (s.bytesAt .ctrlBuf p 0 7), lineCodingBytes_ofList (State.bytesAt_length ..),
    setLineCodingOp_eq hcap, fun t ht => ?_⟩
  rw [setLineCodingOp_eq hcap, ← Proc.outcome_eq_next] at ht
  obtain ⟨hports, hchan, hother, hbytes⟩ := reconfigure_onlyReconfigures p _ t ht
  refine ⟨?_, hchan, hbytes, ?_, hother, fun b => hbytes b p.other⟩
  · simp [State.port, hports, State.modPort]
  · simp [State.port, hports, State.modPort]

/-- Settles O32: SETUP of such a packet is the step of PATH_OTHER, which after routing clears the armed receive and
does nothing. -/
theorem otherRequestsDoNothing : Obligations.OtherRequestsDoNothing := by
  intro s pkt p hf hv hr hkind i hi
  have hother : exec (.pathOther pkt) s = .next { s with ctrlRxArmed := none } := exec_pathOther_routed hf hv hr
  have hclass : pkt.reqType ≠ .classType := by rcases hkind with ⟨ht, -⟩ | ht | ht <;> simp [ht]
  have hget : ¬(pkt.reqType = .standard ∧ pkt.bRequest = 0x0A) := by
    rintro ⟨hstd, hcode⟩
    rcases hkind with ⟨-, hne⟩ | ht | ht
    · exact hne hcode
    · simp [ht] at hstd
    · simp [ht] at hstd
  rcases List.mem_pair.mp hi with rfl | rfl
  · exact (exec_setup_other hclass hget s).trans hother
  · exact hother

end Sys2Proof.Proofs
end

section
/-! `Transmit` (spec/41_bulk_data.md R167) in each transmit state of its port, and the statement that the guard is
the port's own. -/

namespace Sys2Proof.Machine

/-- A Busy port's transmit, whatever the length, is turned away by the guard before the buffer is read. -/
theorem transmit_busy {p : Port} {s : State} (h : (s.port p).txState = .busy) (n : Nat) :
    transmit p n s = .run { s with raised := s.raised ++ [.busy p] } := by
  simp only [transmit, h]
  rfl

/-- An Idle port's transmit within the buffer starts the transfer. -/
theorem transmit_idle {p : Port} {n : Nat} {s : State} (h : (s.port p).txState = .idle)
    (hn : n ≤ s.params.ringCap) :
    transmit p n s = .run { s with
      ports := s.ports.modify p fun r => { r with txLen := n, txState := .busy }
      out := s.out ++ [.usbTransmit (s.params.epIn.get p) (s.bytesAt .txBuf p 0 n)] } := by
  simp only [transmit_eq hn, h]

end Sys2Proof.Machine

namespace Sys2Proof.Proofs

open Sys2Proof.Machine

/-- Settles O46: one case of the guard each; only the Idle case reads the buffer, and so needs the bound. -/
theorem transmitGuardIsPerPort : Obligations.TransmitGuardIsPerPort := by
  intro s p n _ hcap
  exact ⟨fun hbusy => transmit_busy hbusy n, fun hidle => transmit_idle hidle hcap⟩

end Sys2Proof.Proofs
end

section
/-! The drain of an Idle port (spec/42_ring_scheduler.md R196 to R201): the law of its count, the state it leaves,
and the two runs of a copy whose unread bytes wrap. -/

namespace Sys2Proof.Machine

/-! ### The count -/

theorem writeCursor_lt {cap remaining : Nat} (hpos : 1 ≤ remaining) (hcap : remaining ≤ cap) :
    writeCursor cap remaining < cap := by
  simp only [writeCursor]
  omega

/-- The law that fixes the count (R196): so many bytes past the read cursor lies the write cursor. -/
theorem bytesAvailable_law {cap w r : Nat} (hw : w < cap) (hr : r < cap) :
    (r + bytesAvailable cap w r) % cap = w := by
  rw [bytesAvailable_eq hw hr]
  split
  case isTrue hle => rw [Nat.add_sub_cancel' hle, Nat.mod_eq_of_lt hw]
  case isFalse hlt =>
    have hsum : r + (w + cap - r) = w + cap := by omega
    rw [hsum, Nat.add_mod_right, Nat.mod_eq_of_lt hw]

section RingRegisters

variable {s : State} {p : Port}

theorem unreadCount_lt (hpos : 1 ≤ (s.chan p).rxRemaining) (hcap : (s.chan p).rxRemaining ≤ s.params.ringCap)
    (hcur : (s.chan p).rxReadCursor < s.params.ringCap) : unreadCount s p < s.params.ringCap :=
  bytesAvailable_lt (writeCursor_lt hpos hcap) hcur

/-- The write cursor is behind the read cursor: the unread bytes reach the ring's end and go on from its start. -/
theorem unreadCount_wrapped (hcur : (s.chan p).rxReadCursor < s.params.ringCap)
    (hwrap : writeCursor s.params.ringCap (s.chan p).rxRemaining < (s.chan p).rxReadCursor) :
    unreadCount s p = (s.params.ringCap - (s.chan p).rxReadCursor) +
      writeCursor s.params.ringCap (s.chan p).rxRemaining := by
  rw [unreadCount, bytesAvailable_eq (hwrap.trans hcur) hcur, if_neg (by omega)]
  omega

/-- Where the unread bytes wrap, the effective addresses of R198 are two runs, in that order. -/
theorem unreadBytes_wrapped (hcur : (s.chan p).rxReadCursor < s.params.ringCap)
    (hwrap : writeCursor s.params.ringCap (s.chan p).rxRemaining < (s.chan p).rxReadCursor) :
    unreadBytes s p =
      s.bytesAt .rxRing p (s.chan p).rxReadCursor (s.params.ringCap - (s.chan p).rxReadCursor) ++
        s.bytesAt .rxRing p 0 (writeCursor s.params.ringCap (s.chan p).rxRemaining) := by
  rw [unreadBytes, unreadCount_wrapped hcur hwrap, List.range_add, List.map_append, List.map_map]
  congr 1
  · refine List.map_congr_left fun k hk => ?_
    have hk' := List.mem_range.mp hk
    rw [Nat.mod_eq_of_lt (by omega)]
  · refine List.map_congr_left fun k hk => ?_
    have hk' := List.mem_range.mp hk
    have hpast : (s.chan p).rxReadCursor + (s.params.ringCap - (s.chan p).rxReadCursor + k) =
        s.params.ringCap + k := by omega
    simp only [Function.comp_apply, hpast, Nat.add_mod_left, Nat.zero_add]
    rw [Nat.mod_eq_of_lt (by omega)]

end RingRegisters

/-! ### The state a drain leaves -/

/-- The state after the drain of an Idle port with unread bytes: they are in `tx_buf[p]`, the read cursor is the
write cursor, and their transfer has started. -/
def drainedState (s : State) (p : Port) : State :=
  { s.store .txBuf p 0 (unreadBytes s p) with
    chans := s.chans.modify p fun r =>
      { r with rxReadCursor := writeCursor s.params.ringCap (s.chan p).rxRemaining }
    ports := s.ports.modify p fun r => { r with txLen := unreadCount s p, txState := .busy }
    out := s.out ++ [.usbTransmit (s.params.epIn.get p) (unreadBytes s p)] }

section Drain

variable {s : State} {p : Port}

theorem drain_empty (hpos : 1 ≤ (s.chan p).rxRemaining) (hcap : (s.chan p).rxRemaining ≤ s.params.ringCap)
    (hcur : (s.chan p).rxReadCursor < s.params.ringCap) (hn : unreadCount s p = 0) : drain p s = .run s := by
  rw [drain_eq hpos hcap hcur, if_pos hn]

theorem drain_idle (hpos : 1 ≤ (s.chan p).rxRemaining) (hcap : (s.chan p).rxRemaining ≤ s.params.ringCap)
    (hcur : (s.chan p).rxReadCursor < s.params.ringCap) (hn : unreadCount s p ≠ 0)
    (hidle : (s.port p).txState = .idle) : drain p s = .run (drainedState s p) := by
  rw [drain_eq hpos hcap hcur, if_neg hn, hidle]
  rfl

end Drain

@[simp] theorem unreadBytes_length (s : State) (p : Port) : (unreadBytes s p).length = unreadCount s p := by
  simp [unreadBytes]

theorem drainedState_bytesAt (s : State) (p : Port) :
    (drainedState s p).bytesAt .txBuf p 0 (unreadCount s p) = unreadBytes s p := by
  have hstored := s.store_bytesAt_same .txBuf p 0 (unreadBytes s p)
  rw [unreadBytes_length] at hstored
  exact hstored

theorem drainedState_sameBytesOutside (s : State) (p : Port) :
    SameBytesOutside s (drainedState s p) .txBuf p 0 (unreadCount s p) := by
  have hstored := SameBytesOutside.store s .txBuf p 0 (unreadBytes s p)
  rw [unreadBytes_length] at hstored
  exact hstored

theorem drainedState_readCursor (s : State) (p : Port) :
    ((drainedState s p).chan p).rxReadCursor = writeCursor s.params.ringCap (s.chan p).rxRemaining := by
  simp [drainedState, State.chan]

theorem drainedState_emits (s : State) (p : Port) :
    Emits s (drainedState s p) [.usbTransmit (s.params.epIn.get p) (unreadBytes s p)] := rfl

/-- A wrapped drain puts the run from the read cursor to the ring's end first, the run from its start behind it. -/
theorem drainedState_bytesAt_wrapped {s : State} {p : Port} (hcur : (s.chan p).rxReadCursor < s.params.ringCap)
    (hwrap : writeCursor s.params.ringCap (s.chan p).rxRemaining < (s.chan p).rxReadCursor) :
    let first := s.params.ringCap - (s.chan p).rxReadCursor
    let second := writeCursor s.params.ringCap (s.chan p).rxRemaining
    (drainedState s p).bytesAt .txBuf p 0 first = s.bytesAt .rxRing p (s.chan p).rxReadCursor first ∧
      (drainedState s p).bytesAt .txBuf p first second = s.bytesAt .rxRing p 0 second := by
  have hall := drainedState_bytesAt s p
  rw [unreadBytes_wrapped hcur hwrap, unreadCount_wrapped hcur hwrap, State.bytesAt_add, Nat.zero_add] at hall
  exact List.append_inj hall (by simp only [State.bytesAt_length])

end Sys2Proof.Machine

namespace Sys2Proof.Proofs

open Sys2Proof.Machine

/-- Settles O52: the count is fixed by its law and its bound; a drain that finds none returns, and one of an Idle
port leaves `drainedState`. -/
theorem drainMovesUnreadBytes : Obligations.DrainMovesUnreadBytes := by
  intro s p hpos hcap hcur
  refine ⟨unreadCount_lt hpos hcap hcur, bytesAvailable_law (writeCursor_lt hpos hcap) hcur,
    drain_empty hpos hcap hcur, fun hn hidle => ?_⟩
  exact ⟨drainedState s p, drain_idle hpos hcap hcur hn hidle, drainedState_bytesAt s p,
    drainedState_sameBytesOutside s p, rfl, rfl, rfl, ⟨rfl, rfl, rfl⟩, ⟨rfl, rfl, rfl, rfl⟩,
    (List.append_nil _).symm, drainedState_emits s p⟩

/-- Settles O53: the wrapped drain with a first run of 256 - 200 bytes and a second of 256 - 206. -/
theorem wrappedDrainExample : Obligations.WrappedDrainExample := by
  intro s p hsize hread hremaining hidle
  have hwrite : writeCursor s.params.ringCap (s.chan p).rxRemaining = 50 := by rw [hsize, hremaining]; rfl
  have hcur : (s.chan p).rxReadCursor < s.params.ringCap := by omega
  have hwrap : writeCursor s.params.ringCap (s.chan p).rxRemaining < (s.chan p).rxReadCursor := by omega
  have hcount := unreadCount_wrapped hcur hwrap
  have hbytes := unreadBytes_wrapped hcur hwrap
  have hruns := drainedState_bytesAt_wrapped hcur hwrap
  rw [hwrite] at hcount hbytes hruns
  simp only [hsize, hread, Nat.reduceSub, Nat.reduceAdd] at hcount hbytes hruns
  obtain ⟨hfirst, hsecond⟩ := hruns
  have hdrain : drain p s = .run (drainedState s p) :=
    drain_idle (by omega) (by omega) hcur (by omega) hidle
  exact ⟨hcount, drainedState s p, hdrain, (drainedState_readCursor s p).trans hwrite, hfirst, hsecond,
    hbytes ▸ drainedState_emits s p⟩

end Sys2Proof.Proofs
end

section
/-! Ring overrun (spec/70_reset_and_hazards.md R291): the state one stored byte leaves, what is unread in it, and
by induction what is unread after a run of received bytes. -/

namespace Sys2Proof.Machine

/-! ### The newest bytes of a stream -/

/-- What a ring of `cap` bytes still holds of a stream: each full turn loses the `cap` bytes before it. -/
def newestBytes (cap : Nat) (xs : List Byte) : List Byte := xs.drop (cap * (xs.length / cap))

theorem newestBytes_length (cap : Nat) (xs : List Byte) : (newestBytes cap xs).length = xs.length % cap := by
  rw [newestBytes, List.length_drop, Nat.mod_def]

theorem newestBytes_eq_self {cap : Nat} {xs : List Byte} (h : xs.length < cap) : newestBytes cap xs = xs := by
  rw [newestBytes, Nat.div_eq_of_lt h, Nat.mul_zero, List.drop_zero]

theorem newestBytes_eq_nil {cap : Nat} {xs : List Byte} (h : xs.length = cap) : newestBytes cap xs = [] := by
  rw [← List.length_eq_zero_iff, newestBytes_length, h, Nat.mod_self]

theorem newestBytes_eq_drop_mod (cap : Nat) (xs : List Byte) :
    newestBytes cap xs = xs.drop (xs.length - xs.length % cap) := by
  rw [newestBytes, Nat.mul_comm, Nat.div_mul_self_eq_mod_sub_self]

/-- Bytes lost in whole turns before more arrive would have been lost anyway. -/
theorem newestBytes_append (cap : Nat) (xs ys : List Byte) :
    newestBytes cap (newestBytes cap xs ++ ys) = newestBytes cap (xs ++ ys) := by
  have hlost : cap * (xs.length / cap) ≤ xs.length := Nat.mul_div_le _ _
  have hdrop : newestBytes cap xs ++ ys = (xs ++ ys).drop (cap * (xs.length / cap)) :=
    (List.drop_append_of_le_length hlost).symm
  have hlost' : cap * (xs.length / cap) ≤ (xs ++ ys).length := by simp only [List.length_append]; omega
  have hmod := Nat.sub_mul_mod hlost'
  have hkept := Nat.mod_le ((xs ++ ys).length - cap * (xs.length / cap)) cap
  rw [hdrop, newestBytes_eq_drop_mod, newestBytes_eq_drop_mod, List.drop_drop, List.length_drop, hmod]
  congr 1
  omega

/-! ### One received byte -/

/-- Channel `c` receives: the block is alive, the DMA engine runs and the ring registers are in range. -/
structure Receiving (s : State) (c : Port) : Prop where
  alive : s.fatal = false
  running : (s.chan c).dmaRunning = true
  remaining_pos : 1 ≤ (s.chan c).rxRemaining
  remaining_le : (s.chan c).rxRemaining ≤ s.params.ringCap
  cursor_lt : (s.chan c).rxReadCursor < s.params.ringCap

/-- The count after a store, which reloads where it would reach 0 (R191). -/
def nextRemaining (cap remaining : Nat) : Nat := if remaining = 1 then cap else remaining - 1

theorem nextRemaining_range {cap remaining : Nat} (hpos : 1 ≤ remaining) (hcap : remaining ≤ cap) :
    1 ≤ nextRemaining cap remaining ∧ nextRemaining cap remaining ≤ cap := by
  rw [nextRemaining]
  split <;> omega

/-- The write cursor steps around the ring. -/
theorem writeCursor_nextRemaining {cap remaining : Nat} (hpos : 1 ≤ remaining) (hcap : remaining ≤ cap) :
    writeCursor cap (nextRemaining cap remaining) = (writeCursor cap remaining + 1) % cap := by
  rw [nextRemaining]
  split
  case isTrue hlast =>
    have hend : writeCursor cap remaining + 1 = cap := by simp only [writeCursor]; omega
    rw [hend, Nat.mod_self, writeCursor, Nat.sub_self]
  case isFalse hmore =>
    rw [Nat.mod_eq_of_lt (by simp only [writeCursor]; omega)]
    simp only [writeCursor]
    omega

/-- One step of the write cursor is one more byte, modulo the ring. -/
theorem bytesAvailable_succ {cap w r : Nat} (hw : w < cap) (hr : r < cap) :
    bytesAvailable cap ((w + 1) % cap) r = (bytesAvailable cap w r + 1) % cap := by
  have hnext : (w + 1) % cap < cap := Nat.mod_lt _ (by omega)
  have hstep : r + bytesAvailable cap ((w + 1) % cap) r ≡ r + (bytesAvailable cap w r + 1) [MOD cap] :=
    calc (r + bytesAvailable cap ((w + 1) % cap) r) % cap
      _ = (w + 1) % cap := bytesAvailable_law hnext hr
      _ = ((r + bytesAvailable cap w r) % cap + 1) % cap := by rw [bytesAvailable_law hw hr]
      _ = (r + (bytesAvailable cap w r + 1)) % cap := by rw [Nat.mod_add_mod, Nat.add_assoc]
  have hcancel := Nat.ModEq.add_left_cancel' r hstep
  rwa [Nat.ModEq, Nat.mod_eq_of_lt (bytesAvailable_lt hnext hr)] at hcancel

/-- The state after a byte received on channel `c`. -/
def receivedState (s : State) (c : Port) (b : Byte) : State :=
  (s.store .rxRing c (writeCursor s.params.ringCap (s.chan c).rxRemaining) [b]).modChan c fun r =>
    { r with rxRemaining := nextRemaining s.params.ringCap (s.chan c).rxRemaining }

@[simp] theorem receivedState_fatal (s : State) (c : Port) (b : Byte) :
    (receivedState s c b).fatal = s.fatal := rfl
@[simp] theorem receivedState_params (s : State) (c : Port) (b : Byte) :
    (receivedState s c b).params = s.params := rfl
@[simp] theorem receivedState_out (s : State) (c : Port) (b : Byte) : (receivedState s c b).out = s.out := rfl
@[simp] theorem receivedState_raised (s : State) (c : Port) (b : Byte) :
    (receivedState s c b).raised = s.raised := rfl
@[simp] theorem receivedState_chan (s : State) (c : Port) (b : Byte) :
    (receivedState s c b).chan c =
      { s.chan c with rxRemaining := nextRemaining s.params.ringCap (s.chan c).rxRemaining } :=
  State.modChan_chan_same _ _ _

theorem receivedState_byteAt (s : State) (c : Port) (b : Byte) (i : Nat) :
    (receivedState s c b).byteAt .rxRing c i =
      if i = writeCursor s.params.ringCap (s.chan c).rxRemaining then b else s.byteAt .rxRing c i := by
  rw [receivedState, State.modChan_byteAt, State.store_byteAt]
  split
  case isTrue hin =>
    have hi : i = writeCursor s.params.ringCap (s.chan c).rxRemaining := by
      simp only [List.length_singleton] at hin
      omega
    rw [if_pos hi]
    simp [hi]
  case isFalse hout =>
    rw [if_neg]
    rintro rfl
    simp at hout

section Receiving

variable {s : State} {c : Port}

/-- A delivery's draws touch nothing that receiving depends on. -/
theorem Receiving.withDraws (h : Receiving s c) (d : Draws) : Receiving { s with draws := d } c :=
  ⟨h.alive, h.running, h.remaining_pos, h.remaining_le, h.cursor_lt⟩

theorem Receiving.unreadCount_lt (h : Receiving s c) : unreadCount s c < s.params.ringCap :=
  Machine.unreadCount_lt h.remaining_pos h.remaining_le h.cursor_lt

theorem exec_uartRxByte (h : Receiving s c) (b : Byte) :
    exec (.uartRxByte c b) s = .next (receivedState s c b) := by
  change execUartRxByte c b s = _
  rw [execUartRxByte, whenAlive_alive h.alive, if_pos h.running, dmaStore_eq ⟨h.remaining_pos, h.remaining_le⟩,
    setRxRemaining_eq, Proc.outcome_of_run]
  rfl

theorem receivedState_receiving (h : Receiving s c) (b : Byte) : Receiving (receivedState s c b) c := by
  obtain ⟨hpos, hle⟩ := nextRemaining_range h.remaining_pos h.remaining_le
  exact
    { alive := (receivedState_fatal s c b).trans h.alive
      running := by rw [receivedState_chan]; exact h.running
      remaining_pos := by rw [receivedState_chan]; exact hpos
      remaining_le := by rw [receivedState_chan]; exact hle
      cursor_lt := by rw [receivedState_chan]; exact h.cursor_lt }

/-- A store makes one more byte unread, and none where the write cursor meets the read cursor. -/
theorem unreadCount_receivedState (h : Receiving s c) (b : Byte) :
    unreadCount (receivedState s c b) c = (unreadCount s c + 1) % s.params.ringCap := by
  rw [unreadCount, receivedState_chan, receivedState_params,
    writeCursor_nextRemaining h.remaining_pos h.remaining_le,
    bytesAvailable_succ (writeCursor_lt h.remaining_pos h.remaining_le) h.cursor_lt, unreadCount]

/-- The write cursor is the address just behind the unread bytes. -/
theorem Receiving.address_unreadCount (h : Receiving s c) :
    ((s.chan c).rxReadCursor + unreadCount s c) % s.params.ringCap =
      writeCursor s.params.ringCap (s.chan c).rxRemaining :=
  bytesAvailable_law (writeCursor_lt h.remaining_pos h.remaining_le) h.cursor_lt

/-- The write cursor is the address of no unread byte. -/
theorem Receiving.address_ne_writeCursor (h : Receiving s c) {k : Nat} (hk : k < unreadCount s c) :
    ((s.chan c).rxReadCursor + k) % s.params.ringCap ≠ writeCursor s.params.ringCap (s.chan c).rxRemaining := by
  intro heq
  have hmod : k ≡ unreadCount s c [MOD s.params.ringCap] :=
    Nat.ModEq.add_left_cancel' _ (heq.trans h.address_unreadCount.symm)
  exact hk.ne (hmod.eq_of_lt_of_lt (hk.trans h.unreadCount_lt) h.unreadCount_lt)

/-- What is unread after a store: the byte stands behind the bytes unread before it, and where the write cursor
meets the read cursor a whole turn is lost. -/
theorem unreadBytes_receivedState (h : Receiving s c) (b : Byte) :
    unreadBytes (receivedState s c b) c = newestBytes s.params.ringCap (unreadBytes s c ++ [b]) := by
  have hcount := unreadCount_receivedState h b
  have hlt := h.unreadCount_lt
  by_cases hfull : unreadCount s c + 1 = s.params.ringCap
  · rw [hfull, Nat.mod_self] at hcount
    rw [newestBytes_eq_nil (by simpa using hfull), unreadBytes, hcount]
    rfl
  · rw [Nat.mod_eq_of_lt (by omega)] at hcount
    have hroom : (unreadBytes s c ++ [b]).length < s.params.ringCap := by
      simp only [List.length_append, unreadBytes_length, List.length_singleton]
      omega
    rw [newestBytes_eq_self hroom, unreadBytes, hcount, List.range_succ, List.map_append, unreadBytes]
    simp only [receivedState_chan, receivedState_params, receivedState_byteAt]
    congr 1
    · refine List.map_congr_left fun k hk => ?_
      rw [if_neg (h.address_ne_writeCursor (List.mem_range.mp hk))]
    · rw [List.map_singleton, if_pos h.address_unreadCount]

end Receiving

/-! ### A run of received bytes -/

theorem runEvents_cons_next {d : Draws} {i : Instr} {rest : List Event} {s u : State}
    (h : exec i { s with draws := d } = .next u) : runEvents ((d, i) :: rest) s = runEvents rest u := by
  rw [runEvents, h]

/-- What a run of bytes received on channel `c` does to what the next drain of `c` finds. -/
structure ReceivedRun (c : Port) (bytes : List Byte) (s t : State) : Prop where
  unread : unreadBytes t c = newestBytes s.params.ringCap (unreadBytes s c ++ bytes)
  readCursor : (t.chan c).rxReadCursor = (s.chan c).rxReadCursor
  out : t.out = s.out
  raised : t.raised = s.raised

theorem ReceivedRun.nil {s : State} {c : Port} (h : Receiving s c) : ReceivedRun c [] s s where
  unread := by rw [List.append_nil, newestBytes_eq_self (by simpa using h.unreadCount_lt)]
  readCursor := rfl
  out := rfl
  raised := rfl

theorem ReceivedRun.cons {s t : State} {c : Port} {b : Byte} {rest : List Byte} (h : Receiving s c)
    (hrest : ReceivedRun c rest (receivedState s c b) t) : ReceivedRun c (b :: rest) s t where
  unread := by
    rw [hrest.unread, receivedState_params, unreadBytes_receivedState h, newestBytes_append, List.append_assoc]
    rfl
  readCursor := by rw [hrest.readCursor, receivedState_chan]
  out := hrest.out.trans (receivedState_out s c b)
  raised := hrest.raised.trans (receivedState_raised s c b)

theorem receivedRun_of_runEvents {bytes : List Byte} {s t : State} {c : Port} {d : Draws} (h : Receiving s c)
    (hrun : runEvents (bytes.map fun b => (d, Instr.uartRxByte c b)) s = some t) : ReceivedRun c bytes s t := by
  induction bytes generalizing s with
  | nil =>
    cases hrun
    exact .nil h
  | cons b rest ih =>
    have hd := h.withDraws d
    rw [List.map_cons, runEvents_cons_next (exec_uartRxByte hd b)] at hrun
    have hcons : ReceivedRun c (b :: rest) { s with draws := d } t := .cons hd (ih (receivedState_receiving hd b) hrun)
    exact ⟨hcons.unread, hcons.readCursor, hcons.out, hcons.raised⟩

end Sys2Proof.Machine

namespace Sys2Proof.Proofs

open Sys2Proof.Machine

/-- Settles O55, by induction over the stores: each puts its byte behind the unread ones, and one that fills the
ring loses a whole turn; the count is the number of the bytes left. -/
theorem overrunKeepsNewestBytes : Obligations.OverrunKeepsNewestBytes := by
  intro bytes s t c d hf hrunning hpos hcap hcur hrun total
  obtain ⟨hunread, hcursor, hout, hraised⟩ := receivedRun_of_runEvents ⟨hf, hrunning, hpos, hcap, hcur⟩ hrun
  have htotal : (unreadBytes s c ++ bytes).length = total := by rw [List.length_append, unreadBytes_length]
  refine ⟨?count, ?bytes, hcursor, hout, hraised⟩
  case count => rw [← unreadBytes_length, hunread, newestBytes_length, htotal]
  case bytes => rw [hunread, newestBytes_eq_drop_mod, htotal]

end Sys2Proof.Proofs
end

section
/-! The encoding (spec/30_encoding.md): decoding and encoding undo each other, the rows of the opcode table that a
setup packet's word matches, and the operands read from its bytes. -/

namespace Sys2Proof

/-! ### Decoding what `encode` writes -/

theorem decodeChannel_encodeChannel (p : Port) : decodeChannel (encodeChannel p) = .ok p := by cases p <;> rfl

theorem withChannel_encodeChannel (p : Port) (f : Port → Instr) : withChannel (encodeChannel p) f = .ok (f p) := by
  rw [withChannel, decodeChannel_encodeChannel]

theorem accept_of_wf {i : Instr} (h : i.wf = true) : accept i = .ok i := if_pos h

theorem decode_pathRecord (p : SetupPacket) : decode (pathRecord p) = .ok (decodePath p) := by
  simp only [decode, pathRecord, packetOfList_bytes]

theorem decode_classRecord (b : Byte) (r : ClassRequest) : decode (classRecord b r) = decodeClass (r.packet b) := by
  simp only [decode, classRecord, packetOfList_bytes]

/-- A class request outside the nine named codes decodes by the default row (R101). -/
theorem decodeClass_unknown {b : Byte} (h : b ∉ knownClassOpcodes) (r : ClassRequest) :
    decodeClass (r.packet b) = .ok (.classUnknown b r) := by
  have hne : ∀ code ∈ knownClassOpcodes, b.toNat ≠ code.toNat := fun code hcode heq =>
    h (BitVec.eq_of_toNat_eq heq ▸ hcode)
  simp [knownClassOpcodes] at hne
  simp only [decodeClass, ClassRequest.packet, if_true]
  split <;> simp_all [SetupPacket.classRequest]

/-! ### Encoding what `decode` reads -/

theorem accept_ok {i j : Instr} (h : accept i = .ok j) : j = i ∧ j.wf = true := by
  unfold accept at h
  split at h
  · cases h
    exact ⟨rfl, by assumption⟩
  · cases h

theorem noPayload_ok {i j : Instr} {l : List Byte} (h : noPayload i l = .ok j) : l = [] ∧ j = i := by
  cases l with
  | nil => cases h; exact ⟨rfl, rfl⟩
  | cons b rest => cases h

theorem onePayload_ok {f : Byte → Except DecodeError Instr} {l : List Byte} {j : Instr}
    (h : onePayload f l = .ok j) : ∃ b, l = [b] ∧ f b = .ok j := by
  unfold onePayload at h
  split at h
  · exact ⟨_, rfl, h⟩
  · cases h

theorem twoPayload_ok {f : Byte → Byte → Except DecodeError Instr} {l : List Byte} {j : Instr}
    (h : twoPayload f l = .ok j) : ∃ a b, l = [a, b] ∧ f a b = .ok j := by
  unfold twoPayload at h
  split at h
  · exact ⟨_, _, rfl, h⟩
  · cases h

theorem encodeChannel_of_decode {c : Byte} {p : Port} (h : decodeChannel c = .ok p) : encodeChannel p = c := by
  unfold decodeChannel at h
  split at h
  · cases h; simp_all [encodeChannel]
  · split at h
    · cases h; simp_all [encodeChannel]
    · cases h

theorem withChannel_ok {c : Byte} {f : Port → Instr} {j : Instr} (h : withChannel c f = .ok j) :
    ∃ p, encodeChannel p = c ∧ j = f p := by
  unfold withChannel at h
  split at h
  · next p hp =>
    cases h
    exact ⟨p, encodeChannel_of_decode hp, rfl⟩
  · cases h

theorem setupPayload_ok {l : List Byte} {j : Instr} (h : setupPayload l = .ok j) :
    ∃ pkt, j = .setup pkt ∧ pkt.bytes = l := by
  unfold setupPayload at h
  split at h
  · next pkt hpkt =>
    cases h
    exact ⟨pkt, rfl, bytes_packetOfList hpkt⟩
  · cases h

theorem outPayload_ok {l : List Byte} {j : Instr} (h : outPayload l = .ok j) :
    ∃ ep data, l = ep :: data ∧ j = .dataOutComplete ep data ∧ j.wf = true := by
  cases l with
  | nil => cases h
  | cons ep data =>
    obtain ⟨rfl, hwf⟩ := accept_ok h
    exact ⟨ep, data, rfl, rfl, hwf⟩

/-- The EVENT rows: the kind code and its payload are what the instruction encodes to. -/
theorem encode_of_decodeKind {kind : Byte} {payload : List Byte} {i : Instr} (h : decodeKind kind payload = .ok i) :
    encode i = eventRecord (kind :: payload) ∧ i.wf = true := by
  have hkind : BitVec.ofNat 8 kind.toNat = kind := by simp
  unfold decodeKind at h
  split at h
  case h_14 => cases h
  all_goals
    rename_i hcode
    rw [hcode] at hkind
    subst hkind
  case h_4 =>
    obtain ⟨pkt, rfl, rfl⟩ := setupPayload_ok h
    exact ⟨rfl, rfl⟩
  case h_5 =>
    obtain ⟨rfl, hwf⟩ := accept_ok h
    exact ⟨rfl, hwf⟩
  case h_6 =>
    obtain ⟨ep, rfl, hep⟩ := onePayload_ok h
    cases hep
    exact ⟨rfl, rfl⟩
  case h_7 =>
    obtain ⟨ep, data, rfl, rfl, hwf⟩ := outPayload_ok h
    exact ⟨rfl, hwf⟩
  case h_8 | h_11 =>
    obtain ⟨c, b, rfl, hc⟩ := twoPayload_ok h
    obtain ⟨p, rfl, rfl⟩ := withChannel_ok hc
    exact ⟨rfl, rfl⟩
  case h_9 | h_10 =>
    obtain ⟨c, rfl, hc⟩ := onePayload_ok h
    obtain ⟨p, rfl, rfl⟩ := withChannel_ok hc
    exact ⟨rfl, rfl⟩
  all_goals
    obtain ⟨rfl, rfl⟩ := noPayload_ok h
    exact ⟨rfl, rfl⟩

/-- The SETUP_PATH rows lose nothing of the packet. -/
theorem encode_decodePath (p : SetupPacket) : encode (decodePath p) = pathRecord p ∧ (decodePath p).wf = true := by
  obtain ⟨dir, reqType, recipient, bRequest, wValue, wIndex, wLength⟩ := p
  unfold decodePath
  dsimp only
  split
  case isTrue hclass =>
    cases hclass
    split
    case isTrue h0 =>
      cases h0
      exact ⟨rfl, rfl⟩
    case isFalse h0 => cases dir <;> exact ⟨rfl, by simpa [Instr.wf] using h0⟩
  case isFalse hclass =>
    split
    case isTrue hget =>
      obtain ⟨rfl, rfl⟩ := hget
      exact ⟨rfl, rfl⟩
    case isFalse hget =>
      exact ⟨rfl, by simp only [Instr.wf, ne_eq, hclass, hget, not_false_iff, decide_true, Bool.and_self]⟩

theorem packet_classRequest {p : SetupPacket} (h : p.reqType = .classType) : p.classRequest.packet p.bRequest = p := by
  cases p
  cases h
  rfl

/-- The SETUP_CLASS rows lose nothing of the packet. -/
theorem encode_of_decodeClass {p : SetupPacket} {i : Instr} (h : decodeClass p = .ok i) :
    encode i = { format := .setupClass, bytes := p.bytes } ∧ i.wf = true := by
  have hcode : BitVec.ofNat 8 p.bRequest.toNat = p.bRequest := by simp
  unfold decodeClass at h
  split at h
  case isFalse => cases h
  case isTrue hclass =>
    have hrow : classRecord p.bRequest p.classRequest = { format := .setupClass, bytes := p.bytes } := by
      rw [classRecord, packet_classRequest hclass]
    cases h
    rw [← hrow]
    split
    case h_10 h0 h1 h2 h3 h4 h5 h6 h7 h8 =>
      refine ⟨rfl, decide_eq_true fun hmem => ?_⟩
      simp only [knownClassOpcodes, List.mem_cons, List.not_mem_nil, or_false, ← BitVec.toNat_inj] at hmem
      rcases hmem with e | e | e | e | e | e | e | e | e
      exacts [h0 e, h1 e, h2 e, h3 e, h4 e, h5 e, h6 e, h7 e, h8 e]
    all_goals
      next hnat =>
      rw [hnat] at hcode
      exact ⟨hcode ▸ rfl, rfl⟩

/-! ### The paths of a packet (R100) -/

section Paths

variable {p : SetupPacket}

theorem decodePath_noData (hclass : p.reqType = .classType) (h0 : p.wLength = 0) :
    decodePath p = .pathClassNodata p.dir p.recipient p.bRequest p.wValue p.wIndex := by
  rw [decodePath, if_pos hclass, if_pos h0]

theorem decodePath_in (hclass : p.reqType = .classType) (h0 : p.wLength ≠ 0) (hdir : p.dir = .deviceToHost) :
    decodePath p = .pathClassIn p.recipient p.bRequest p.wValue p.wIndex p.wLength := by
  rw [decodePath, if_pos hclass, if_neg h0, hdir]

theorem decodePath_out (hclass : p.reqType = .classType) (h0 : p.wLength ≠ 0) (hdir : p.dir = .hostToDevice) :
    decodePath p = .pathClassOut p.recipient p.bRequest p.wValue p.wIndex p.wLength := by
  rw [decodePath, if_pos hclass, if_neg h0, hdir]

theorem decodePath_getInterface (hstd : p.reqType = .standard) (hcode : p.bRequest = 0x0A) :
    decodePath p = .pathStdGetInterface p.dir p.recipient p.wValue p.wIndex p.wLength := by
  rw [decodePath, if_neg (by simp [hstd]), if_pos ⟨hstd, hcode⟩]

theorem decodePath_other (hclass : p.reqType ≠ .classType) (hget : ¬(p.reqType = .standard ∧ p.bRequest = 0x0A)) :
    decodePath p = .pathOther p := by
  rw [decodePath, if_neg hclass, if_neg hget]

end Paths

/-! ### The table's rows -/

/-- A mask is read in two parts, above and below a bit position. -/
theorem land_split (w a : Nat) {b k : Nat} (hb : b < 2 ^ k) :
    Nat.land w (2 ^ k * a + b) = 2 ^ k * Nat.land (w / 2 ^ k) a + Nat.land (w % 2 ^ k) b := by
  have hdiv : (2 ^ k * a + b) / 2 ^ k = a := by
    rw [Nat.mul_add_div (Nat.two_pow_pos k), Nat.div_eq_of_lt hb, Nat.add_zero]
  have hmod : (2 ^ k * a + b) % 2 ^ k = b := by rw [Nat.mul_add_mod, Nat.mod_eq_of_lt hb]
  have hparts := Nat.div_add_mod (w &&& (2 ^ k * a + b)) (2 ^ k)
  rw [Nat.and_div_two_pow, Nat.and_mod_two_pow, hdiv, hmod] at hparts
  exact hparts.symm

theorem bmRequestType_type : ∀ (d : Dir) (t : ReqType) (x : BitVec 5),
    Nat.land (d.bit ++ (t.bits ++ x)).toNat 0x60 = 32 * t.bits.toNat := by
  intro d t
  cases d <;> cases t <;> decide

theorem bmRequestType_dir_type : ∀ (d : Dir) (t : ReqType) (x : BitVec 5),
    Nat.land (d.bit ++ (t.bits ++ x)).toNat 0xE0 = 128 * d.bit.toNat + 32 * t.bits.toNat := by
  intro d t
  cases d <;> cases t <;> decide

/-- The word through the mask of the type bits. -/
theorem word_type (p : SetupPacket) : Nat.land p.word 0x60 = 32 * p.reqType.bits.toNat :=
  (Laws.word_mask8 p (by decide)).trans (bmRequestType_type _ _ _)

/-- The word through the mask of the direction and type bits. -/
theorem word_dir_type (p : SetupPacket) :
    Nat.land p.word 0xE0 = 128 * p.dir.bit.toNat + 32 * p.reqType.bits.toNat :=
  (Laws.word_mask8 p (by decide)).trans (bmRequestType_dir_type _ _ _)

/-- The word through the mask of the type bits and the request code. -/
theorem word_type_code (p : SetupPacket) :
    Nat.land p.word 0xFF60 = 256 * p.bRequest.toNat + 32 * p.reqType.bits.toNat := by
  have hlow := p.bmRequestType.isLt
  have hcode : Nat.land p.bRequest.toNat 0xFF = p.bRequest.toNat := by
    change p.bRequest.toNat &&& (2 ^ 8 - 1) = _
    rw [Nat.and_two_pow_sub_one_eq_mod, Nat.mod_eq_of_lt p.bRequest.isLt]
  have hsplit := land_split (p.bmRequestType.toNat + 256 * p.bRequest.toNat) 0xFF (b := 0x60) (k := 8) (by decide)
  have hdiv : (p.bmRequestType.toNat + 256 * p.bRequest.toNat) / 2 ^ 8 = p.bRequest.toNat := by omega
  have hmod : (p.bmRequestType.toNat + 256 * p.bRequest.toNat) % 2 ^ 8 = p.bmRequestType.toNat := by omega
  rw [hdiv, hmod, hcode] at hsplit
  rw [Laws.land_low (k := 16) (by decide), Laws.word_low]
  exact hsplit.trans (congrArg _ (bmRequestType_type _ _ _))

theorem toNat_le16_byteOf (v : Half) : (byteOf v 0).toNat + 256 * (byteOf v 1).toNat = v.toNat := by
  have hbytes := congrArg BitVec.toNat (le16_byteOf v)
  rwa [le16, toNat_append_eq_add] at hbytes

/-- The word through the mask of `wLength` and the type bits. -/
theorem word_length_type (p : SetupPacket) :
    Nat.land p.word 0xFFFF000000000060 = 2 ^ 48 * p.wLength.toNat + 32 * p.reqType.bits.toNat := by
  have hlength := toNat_le16_byteOf p.wLength
  have hdiv : p.word / 2 ^ 48 = p.wLength.toNat := by
    have h0 := p.bmRequestType.isLt
    have h1 := p.bRequest.isLt
    have h2 := (byteOf p.wValue 0).isLt
    have h3 := (byteOf p.wValue 1).isLt
    have h4 := (byteOf p.wIndex 0).isLt
    have h5 := (byteOf p.wIndex 1).isLt
    simp only [SetupPacket.word, SetupPacket.bytes, wordOfBytes]
    omega
  have hall : Nat.land p.wLength.toNat 0xFFFF = p.wLength.toNat := by
    change p.wLength.toNat &&& (2 ^ 16 - 1) = _
    rw [Nat.and_two_pow_sub_one_eq_mod, Nat.mod_eq_of_lt p.wLength.isLt]
  have hsplit := land_split p.word 0xFFFF (b := 0x60) (k := 48) (by decide)
  rw [hdiv, hall, ← Laws.land_low (by decide), word_type] at hsplit
  exact hsplit

theorem firstRow_cons (row : TableRow) (rest : List TableRow) (w : Nat) :
    firstRow (row :: rest) w = if Nat.land w row.mask = row.pattern then some row.mnemonic else firstRow rest w := by
  simp only [firstRow, TableRow.hits, beq_iff_eq]

theorem ReqType.bits_eq_one {t : ReqType} : t.bits.toNat = 1 ↔ t = .classType := by cases t <;> decide
theorem ReqType.bits_eq_zero {t : ReqType} : t.bits.toNat = 0 ↔ t = .standard := by cases t <;> decide
theorem ReqType.bits_lt (t : ReqType) : t.bits.toNat < 4 := t.bits.isLt

/-- The first SETUP_PATH row of a packet's word is the one `decodePath` names (R100). -/
theorem firstRow_pathRows (p : SetupPacket) : firstRow pathRows p.word = some (decodePath p).mnemonic := by
  have hlt := p.reqType.bits_lt
  have hcode := p.bRequest.isLt
  simp only [pathRows, firstRow_cons, word_length_type, word_dir_type, word_type_code]
  by_cases hclass : p.reqType = .classType
  · have hbits := ReqType.bits_eq_one.mpr hclass
    rw [hbits]
    by_cases h0 : p.wLength = 0
    · rw [decodePath_noData hclass h0, h0]
      rfl
    · have hpos : p.wLength.toNat ≠ 0 := fun h => h0 (BitVec.eq_of_toNat_eq h)
      rw [if_neg (by omega)]
      cases hdir : p.dir with
      | deviceToHost => rw [decodePath_in hclass h0 hdir]; rfl
      | hostToDevice => rw [decodePath_out hclass h0 hdir]; rfl
  · have hne : p.reqType.bits.toNat ≠ 1 := fun h => hclass (ReqType.bits_eq_one.mp h)
    rw [if_neg (by omega), if_neg (by omega), if_neg (by omega)]
    by_cases hget : p.reqType = .standard ∧ p.bRequest = 0x0A
    · rw [decodePath_getInterface hget.1 hget.2, hget.1, hget.2]
      rfl
    · have hmiss : ¬256 * p.bRequest.toNat + 32 * p.reqType.bits.toNat = 0xA00 := fun h =>
        hget ⟨ReqType.bits_eq_zero.mp (by omega),
          BitVec.eq_of_toNat_eq (show p.bRequest.toNat = 0x0A by omega)⟩
      rw [decodePath_other hclass hget, if_neg hmiss, if_pos (show Nat.land p.word 0 = 0 from Nat.and_zero _)]
      rfl

/-- The first SETUP_CLASS row of a class packet's word is the one `decodeClass` names (R101). -/
theorem firstRow_classRows {p : SetupPacket} (h : p.reqType = .classType) :
    ∃ i, decodeClass p = .ok i ∧ firstRow classRows p.word = some i.mnemonic := by
  have hbits := ReqType.bits_eq_one.mpr h
  rw [decodeClass, if_pos h]
  refine ⟨_, rfl, ?_⟩
  rw [classRows]
  split
  case h_10 h0 h1 h2 h3 h4 h5 h6 h7 h8 =>
    simp only [imp_false] at h0 h1 h2 h3 h4 h5 h6 h7 h8
    simp only [firstRow_cons, word_type_code, word_type, hbits]
    repeat rw [if_neg (by omega)]
    rfl
  all_goals
    rename_i hnat
    simp only [firstRow_cons, word_type_code, hbits, hnat]
    rfl

end Sys2Proof

namespace Sys2Proof.Proofs

open Sys2Proof.Machine

/-- Settles O1: an EVENT row keeps its payload, and the two SETUP formats carry the packet, from which the row's
operands are read back. -/
theorem decodeOfEncode : Obligations.DecodeOfEncode := by
  intro i hwf
  cases i with
  | reset | configure | deconfigure | dataInComplete | timerTick | schedRun => rfl
  | setup pkt =>
    change setupPayload pkt.bytes = _
    rw [setupPayload, packetOfList_bytes]
  | ctrlDataComplete data => exact accept_of_wf hwf
  | dataOutComplete ep data => exact accept_of_wf hwf
  | uartRxByte c b => exact withChannel_encodeChannel c (.uartRxByte · b)
  | uartTxByte c => exact withChannel_encodeChannel c .uartTxByte
  | uartTxComplete c => exact withChannel_encodeChannel c .uartTxComplete
  | uartError c kind => exact withChannel_encodeChannel c (.uartError · kind)
  | pathClassNodata dir recipient bRequest wValue wIndex => exact decode_pathRecord _
  | pathClassIn recipient bRequest wValue wIndex wLength =>
    exact (decode_pathRecord _).trans (congrArg _ (decodePath_in rfl (of_decide_eq_true hwf) rfl))
  | pathClassOut recipient bRequest wValue wIndex wLength =>
    exact (decode_pathRecord _).trans (congrArg _ (decodePath_out rfl (of_decide_eq_true hwf) rfl))
  | pathStdGetInterface dir recipient wValue wIndex wLength => exact decode_pathRecord _
  | pathOther pkt =>
    simp only [Instr.wf, Bool.and_eq_true, decide_eq_true_eq] at hwf
    obtain ⟨hclass, hget⟩ := hwf
    exact (decode_pathRecord pkt).trans (congrArg _ (decodePath_other hclass hget))
  | sendEncapsulatedCommand r | getEncapsulatedResponse r | setCommFeature r | getCommFeature r
  | clearCommFeature r | setLineCoding r | getLineCoding r | setControlLineState r | sendBreak r =>
    exact decode_classRecord _ r
  | classUnknown bRequest r =>
    exact (decode_classRecord bRequest r).trans (decodeClass_unknown (of_decide_eq_true hwf) r)

/-- Settles O2: by the record's format, through what each format's decoder reads. -/
theorem encodeOfDecode : Obligations.EncodeOfDecode := by
  rintro ⟨format, bytes⟩ i h
  cases format with
  | event =>
    cases bytes with
    | nil => cases h
    | cons kind payload => exact encode_of_decodeKind h
  | setupPath =>
    simp only [decode] at h
    split at h
    · next pkt hpkt =>
      cases h
      rw [← bytes_packetOfList hpkt]
      exact encode_decodePath pkt
    · cases h
  | setupClass =>
    simp only [decode] at h
    split at h
    · next pkt hpkt =>
      rw [← bytes_packetOfList hpkt]
      exact encode_of_decodeClass h
    · cases h

/-- Settles O3: the rows' masks see the type bits with, by format, the length, the direction and the code, and the
first of them to match is chosen as the decoder chooses. -/
theorem setupRowsAreFirstMatches : Obligations.SetupRowsAreFirstMatches := fun pkt =>
  ⟨firstRow_pathRows pkt, firstRow_classRows⟩

/-- Settles O4: the three fields of the first byte are its digits, and the two 16-bit operands are little-endian. -/
theorem setupOperandsAreAssembled : Obligations.SetupOperandsAreAssembled := by
  intro b0 b1 b2 b3 b4 b5 b6 b7 pkt
  refine ⟨?dir, ?type, ?recipient, rfl, byteOf_le16_zero b4 b5, toNat_append_eq_add b7 b6⟩
  case dir =>
    change dirOfBit (b0.getLsbD 7) = .deviceToHost ↔ _
    revert b0
    decide
  case type =>
    change (reqTypeOfBits (b0.extractLsb' 5 2)).bits.toNat = _
    revert b0
    decide
  case recipient =>
    change (b0.extractLsb' 0 5).toNat = _
    simp [Nat.shiftRight_eq_div_pow]

/-- Settles O5: no kind code above `0x0C` has an arm in `decodeKind`. -/
theorem unassignedKindsRefused : Obligations.UnassignedKindsRefused := by
  intro kind payload h
  change decodeKind kind payload = _
  unfold decodeKind
  split
  case h_14 => rfl
  all_goals omega

/-- Settles O6: each word is read by evaluating the decoder. -/
theorem sampleWordsDecode : Obligations.SampleWordsDecode := ⟨rfl, rfl, rfl, rfl, rfl, rfl⟩

end Sys2Proof.Proofs
end

section
/-! SETUP by any row of the table (spec/40_control_requests.md R120 to R126): the one case split over its rows, and
from it routing, the agreement of the three formats, and the requests on each path. -/

namespace Sys2Proof.Machine

/-! ### The rows of a SETUP event -/

/-- What a SETUP row runs as the handler of its request code: `Control`, or for the rows of R137 and R138 its arm
without effect. -/
inductive RequestHandler (opcode : Byte) (p : Port) : (State → Proc) → Prop
  | control : RequestHandler opcode p (control p opcode)
  | noEffect : RequestHandler opcode p noEffectOp

/-- What the SETUP event `i` with packet `pkt` runs after routing to port `p`: one of the five paths (R100). The
conditions on `i.wf` leave out the rows whose operands the encoding does not allow. -/
inductive RequestBody (i : Instr) (pkt : SetupPacket) (p : Port) : (State → Proc) → Prop
  | noData {handler : State → Proc} (hclass : pkt.reqType = .classType) (h0 : pkt.wLength = 0)
      (hh : RequestHandler pkt.bRequest p handler) : RequestBody i pkt p handler
  | dataIn {handler : State → Proc} (hclass : pkt.reqType = .classType) (hdir : pkt.dir = .deviceToHost)
      (hh : RequestHandler pkt.bRequest p handler) : RequestBody i pkt p (classIn p handler pkt.wLength.toNat)
  | dataOut (hclass : pkt.reqType = .classType) (hdir : pkt.dir = .hostToDevice)
      (h0 : i.wf = true → pkt.wLength ≠ 0) : RequestBody i pkt p (classOut p pkt.bRequest pkt.wLength)
  | getInterface (hstd : pkt.reqType = .standard) : RequestBody i pkt p getInterface
  | other (hclass : i.wf = true → pkt.reqType ≠ .classType) : RequestBody i pkt p otherRequest

/-- A class request takes the path of its length and direction. -/
theorem RequestBody.classPath {i : Instr} {pkt : SetupPacket} {p : Port} {handler : Port → State → Proc}
    (hclass : pkt.reqType = .classType) (hh : RequestHandler pkt.bRequest p (handler p)) :
    RequestBody i pkt p (classPath pkt.bRequest handler pkt.dir pkt.wLength p) := by
  by_cases h0 : pkt.wLength = 0
  · have hpath : Machine.classPath pkt.bRequest handler pkt.dir pkt.wLength p = handler p :=
      funext fun s => classPath_noData h0
    rw [hpath]
    exact .noData hclass h0 hh
  · cases hdir : pkt.dir with
    | deviceToHost =>
      have hpath : Machine.classPath pkt.bRequest handler .deviceToHost pkt.wLength p =
          classIn p (handler p) pkt.wLength.toNat := funext fun s => classPath_in h0
      rw [hpath]
      exact .dataIn hclass hdir hh
    | hostToDevice =>
      have hpath : Machine.classPath pkt.bRequest handler .hostToDevice pkt.wLength p =
          classOut p pkt.bRequest pkt.wLength := funext fun s => classPath_out h0
      rw [hpath]
      exact .dataOut hclass hdir fun _ => h0

/-- The step of a SETUP event, whatever its row: routing, then the body of one of the five paths. -/
def IsRequest (i : Instr) (pkt : SetupPacket) : Prop :=
  ∃ body, (∀ s, exec i s = (setupStep pkt.wIndex s body).outcome) ∧ ∀ p, RequestBody i pkt p (body p)

theorem isRequest_class {i : Instr} {r : ClassRequest} {opcode : Byte} {handler : Port → State → Proc}
    (hexec : ∀ s, exec i s = (classStep opcode handler r s).outcome)
    (hh : ∀ p, RequestHandler opcode p (handler p)) : IsRequest i (r.packet opcode) :=
  ⟨_, hexec, fun p => RequestBody.classPath rfl (hh p)⟩

/-- The case split over the sixteen rows. -/
theorem isRequest_of_setupPacket {i : Instr} {pkt : SetupPacket} (h : setupPacket i = some pkt) :
    IsRequest i pkt := by
  cases i with
  | reset | configure | deconfigure | ctrlDataComplete | dataInComplete | dataOutComplete | uartRxByte | uartTxByte
  | uartTxComplete | uartError | timerTick | schedRun => cases h
  | setup q =>
    cases h
    refine ⟨_, fun s => rfl, fun p => ?_⟩
    by_cases hclass : pkt.reqType = .classType
    · simp only [if_pos hclass]
      exact .classPath hclass .control
    · by_cases hget : pkt.reqType = .standard ∧ pkt.bRequest = 0x0A
      · simp only [if_neg hclass, if_pos hget]
        exact .getInterface hget.1
      · simp only [if_neg hclass, if_neg hget]
        exact .other fun _ => hclass
  | pathClassNodata => cases h; exact ⟨_, fun s => rfl, fun p => .noData rfl rfl .control⟩
  | pathClassIn => cases h; exact ⟨_, fun s => rfl, fun p => .dataIn rfl rfl .control⟩
  | pathClassOut => cases h; exact ⟨_, fun s => rfl, fun p => .dataOut rfl rfl of_decide_eq_true⟩
  | pathStdGetInterface => cases h; exact ⟨_, fun s => rfl, fun p => .getInterface rfl⟩
  | pathOther q =>
    cases h
    refine ⟨_, fun s => rfl, fun p => .other fun hwf => ?_⟩
    simp only [Instr.wf, Bool.and_eq_true, decide_eq_true_eq] at hwf
    exact hwf.1
  | setLineCoding | getLineCoding => cases h; exact isRequest_class (fun s => rfl) fun p => .control
  | sendEncapsulatedCommand | getEncapsulatedResponse | setCommFeature | getCommFeature | clearCommFeature
  | setControlLineState | sendBreak | classUnknown =>
    cases h; exact isRequest_class (fun s => rfl) fun p => .noEffect

/-- A request no port takes, by any row (R122, R253). -/
theorem exec_request_unroutable {s : State} {i : Instr} {pkt : SetupPacket} (hf : s.fatal = false)
    (h : setupPacket i = some pkt) (hr : Unroutable s pkt.wIndex) :
    exec i s = .next { s with
      ctrlRxArmed := none
      out := s.out ++ [.diag .unroutableRequest (ifaceOf pkt.wIndex)]
      raised := s.raised ++ [.unroutableRequest (ifaceOf pkt.wIndex)] } := by
  obtain ⟨body, hexec, -⟩ := isRequest_of_setupPacket h
  rw [hexec, setupStep_unroutable hf hr, Proc.outcome_of_ended]

/-- In the halted state every event but RESET is refused before anything is read (R49). -/
theorem exec_halted {s : State} {i : Instr} (hf : s.fatal = true) (hi : i ≠ .reset) :
    exec i s = .refused .halted := by
  have hrefused : ∀ m : Proc, (whenAlive s m).outcome = .refused .halted := fun m => by
    rw [whenAlive_halted hf, Proc.outcome_of_refused]
  cases hpkt : setupPacket i with
  | some pkt =>
    obtain ⟨body, hexec, -⟩ := isRequest_of_setupPacket hpkt
    rw [hexec]
    exact hrefused _
  | none =>
    cases i with
    | reset => exact absurd rfl hi
    | configure | deconfigure | ctrlDataComplete | dataInComplete | dataOutComplete | uartRxByte | uartTxByte
    | uartTxComplete | uartError | timerTick | schedRun => exact hrefused _
    | setup | pathClassNodata | pathClassIn | pathClassOut | pathStdGetInterface | pathOther
    | sendEncapsulatedCommand | getEncapsulatedResponse | setCommFeature | getCommFeature | clearCommFeature
    | setLineCoding | getLineCoding | setControlLineState | sendBreak | classUnknown => cases hpkt

/-- A step that completes began alive, unless it is RESET. -/
theorem alive_of_exec {s t : State} {i : Instr} (h : exec i s = .next t) (hi : i ≠ .reset) : s.fatal = false := by
  by_contra hf
  rw [exec_halted (by simpa using hf) hi] at h
  cases h

/-! ### The three formats of a packet -/

/-- The request codes that reach the handler's arm without effect. -/
theorem control_eq_noEffect {opcode : Byte} (hset : opcode ≠ 0x20) (hget : opcode ≠ 0x21) :
    (fun q => control q opcode) = fun _ => noEffectOp :=
  funext fun q => funext fun s => control_other q hset hget s

theorem setupStep_congr {wIndex : Half} {s : State} {body body' : Port → State → Proc}
    (h : ∀ p t, body p t = body' p t) : setupStep wIndex s body = setupStep wIndex s body' := by
  rw [funext fun p => funext (h p)]

/-- By its path a packet has the step of SETUP. -/
theorem exec_decodePath (pkt : SetupPacket) (s : State) : exec (decodePath pkt) s = exec (.setup pkt) s := by
  by_cases hclass : pkt.reqType = .classType
  · rw [exec_setup_class hclass]
    by_cases h0 : pkt.wLength = 0
    · rw [decodePath_noData hclass h0]
      exact congrArg Proc.outcome (setupStep_congr fun p t =>
        (classPath_noData (handler := fun q => control q pkt.bRequest) h0).symm)
    · cases hdir : pkt.dir with
      | deviceToHost =>
        rw [decodePath_in hclass h0 hdir]
        refine congrArg Proc.outcome (setupStep_congr fun p t => ?_)
        rw [SetupPacket.classRequest, hdir]
        exact (classPath_in (handler := fun q => control q pkt.bRequest) h0).symm
      | hostToDevice =>
        rw [decodePath_out hclass h0 hdir]
        refine congrArg Proc.outcome (setupStep_congr fun p t => ?_)
        rw [SetupPacket.classRequest, hdir]
        exact (classPath_out h0).symm
  · by_cases hget : pkt.reqType = .standard ∧ pkt.bRequest = 0x0A
    · rw [decodePath_getInterface hget.1 hget.2]
      simp only [exec, execSetup, if_neg hclass, if_pos hget]
      rfl
    · rw [decodePath_other hclass hget, exec_setup_other hclass hget]

/-- A class request with neither line-coding code has the step of CLASS_UNKNOWN (R137, R138). -/
theorem exec_setup_noEffect {pkt : SetupPacket} (hclass : pkt.reqType = .classType) (hset : pkt.bRequest ≠ 0x20)
    (hget : pkt.bRequest ≠ 0x21) (s : State) :
    exec (.setup pkt) s = (classStep pkt.bRequest (fun _ => noEffectOp) pkt.classRequest s).outcome := by
  rw [exec_setup_class hclass, control_eq_noEffect hset hget]

/-- By its class row a packet has the step of SETUP. -/
theorem exec_of_decodeClass {pkt : SetupPacket} {i : Instr} (h : decodeClass pkt = .ok i) (s : State) :
    exec i s = exec (.setup pkt) s := by
  have hcode : pkt.bRequest = BitVec.ofNat 8 pkt.bRequest.toNat := by simp
  unfold decodeClass at h
  split at h
  case isFalse => cases h
  case isTrue hclass =>
    cases h
    split
    case h_10 h0 h1 h2 h3 h4 h5 h6 h7 h8 =>
      exact (exec_setup_noEffect hclass (fun e => h5 (by rw [e]; rfl)) (fun e => h6 (by rw [e]; rfl)) s).symm
    all_goals
      rename_i hnat
      rw [hnat] at hcode
      rw [exec_setup_class hclass, hcode]
      rfl

/-! ### GET_INTERFACE -/

/-- P4 routed: the byte 0, and the armed receive cleared (R121, R129). -/
theorem exec_pathStdGetInterface_routed {s : State} {dir : Dir} {recipient : BitVec 5} {wValue wIndex wLength : Half}
    {p : Port} (hf : s.fatal = false) (hv : s.params.Valid) (hr : Routed s wIndex p) :
    exec (.pathStdGetInterface dir recipient wValue wIndex wLength) s =
      .next { s with ctrlRxArmed := none, out := s.out ++ [.ctrlSend [0x00]] } := by
  simp only [exec, execPathStdGetInterface, setupStep_routed hf hv hr]
  rfl

/-! ### The line-coding requests -/

/-- The state after the line coding of port `p` is written over the head of its control buffer (R136). -/
def readBackState (p : Port) (u : State) : State :=
  u.store .ctrlBuf p 0 (lineCodingBytes (u.port p).lineCoding)

/-- The state after the head of the control buffer is parsed into the line coding of port `p` (R133). -/
def parsedState (p : Port) (u : State) : State :=
  setLineCodingReg p (lineCodingOfList (u.bytesAt .ctrlBuf p 0 7)) u

@[simp] theorem haltedState_eq (c : Port) (s : State) :
    haltedState c s = emit (.fatal .peripheralInitFailure) (setFatal (raise (.peripheralInitFailure c) s)) := rfl

@[simp] theorem reconfiguredState_eq (c : Port) (s : State) :
    reconfiguredState c s =
      emit (.dmaStart c) (emit (.uartInit c (cfgOf (s.port c).lineCoding)) (emit (.uartDeinit c)
        (s.modChan c fun r => { r with
          rxRemaining := s.params.ringCap, rxReadCursor := 0, dmaRunning := true,
          uartCfg := cfgOf (s.port c).lineCoding }))) := by
  simp [reconfiguredState, emit, State.modChan]

@[simp] theorem parsedState_eq (p : Port) (u : State) :
    parsedState p u = u.modPort p fun r => { r with lineCoding := lineCodingOfList (u.bytesAt .ctrlBuf p 0 7) } := rfl

/-- The actions of a reconfiguration up to the call that fails. -/
def failedReconfigurationActions (c : Port) (s : State) : List Action :=
  .uartDeinit c :: if s.draws.deinitOk.get c then [.uartInit c (cfgOf (s.port c).lineCoding)] else []

/-- The state a reconfiguration with a failing answer leaves: everything before the failing call, then the halt
(R134, R257). -/
def haltedReconfigurationState (c : Port) (s : State) : State :=
  haltedState c { s with
    chans := s.chans.modify c fun r => { r with
      dmaRunning := false,
      uartCfg := if s.draws.deinitOk.get c then cfgOf (s.port c).lineCoding else r.uartCfg }
    out := s.out ++ failedReconfigurationActions c s }

theorem reconfigure_ok {c : Port} {s : State} (hd : s.draws.deinitOk.get c = true)
    (hi : s.draws.initOk.get c = true) : reconfigure c s = .run (reconfiguredState c s) := by
  rw [reconfigure_eq, if_pos hd, if_pos hi]

theorem reconfigure_fails {c : Port} {s : State}
    (h : s.draws.deinitOk.get c = false ∨ s.draws.initOk.get c = false) :
    reconfigure c s = .ended (haltedReconfigurationState c s) := by
  rw [reconfigure_eq, haltedReconfigurationState, failedReconfigurationActions]
  cases hd : s.draws.deinitOk.get c with
  | false => rfl
  | true =>
    have hi : s.draws.initOk.get c = false := h.resolve_left (by simp [hd])
    simp [hi]

theorem setLineCodingOp_ok {p : Port} {u : State} (hcap : 7 ≤ u.params.ctrlBufCap)
    (hd : u.draws.deinitOk.get p = true) (hi : u.draws.initOk.get p = true) :
    setLineCodingOp p u = .run (reconfiguredState p (parsedState p u)) :=
  (setLineCodingOp_eq hcap).trans (reconfigure_ok (s := parsedState p u) hd hi)

theorem setLineCodingOp_fails {p : Port} {u : State} (hcap : 7 ≤ u.params.ctrlBufCap)
    (h : u.draws.deinitOk.get p = false ∨ u.draws.initOk.get p = false) :
    setLineCodingOp p u = .ended (haltedReconfigurationState p (parsedState p u)) :=
  (setLineCodingOp_eq hcap).trans (reconfigure_fails (s := parsedState p u) h)

/-- The bytes a `SetLineCoding` reads are the bytes of the line coding it leaves (R104). -/
theorem lineCodingBytes_parsed (p : Port) (u : State) :
    lineCodingBytes ((parsedState p u).port p).lineCoding = u.bytesAt .ctrlBuf p 0 7 := by
  simpa using lineCodingBytes_ofList (u.bytesAt_length .ctrlBuf p 0 7)

/-- After its line coding is written over its head, the control buffer begins with those bytes. -/
theorem readBackState_bytesAt (p : Port) (u : State) :
    (readBackState p u).bytesAt .ctrlBuf p 0 7 = lineCodingBytes (u.port p).lineCoding :=
  u.store_bytesAt_same .ctrlBuf p 0 (lineCodingBytes (u.port p).lineCoding)

theorem readBackState_sameBytesOutside (p : Port) (u : State) :
    SameBytesOutside u (readBackState p u) .ctrlBuf p 0 7 :=
  SameBytesOutside.store u .ctrlBuf p 0 (lineCodingBytes (u.port p).lineCoding)

/-- GET_LINE_CODING as its row and as SETUP. -/
theorem exec_getLineCoding {r : ClassRequest} {i : Instr} (hi : i ∈ [Instr.getLineCoding r, .setup (r.packet 0x21)])
    (s : State) : exec i s = (classStep 0x21 getLineCodingOp r s).outcome := by
  rcases List.mem_pair.mp hi with rfl | rfl
  · rfl
  · exact exec_setup_class rfl s

/-- SET_LINE_CODING as its row and as SETUP. -/
theorem exec_setLineCoding {r : ClassRequest} {i : Instr} (hi : i ∈ [Instr.setLineCoding r, .setup (r.packet 0x20)])
    (s : State) : exec i s = (classStep 0x20 setLineCodingOp r s).outcome := by
  rcases List.mem_pair.mp hi with rfl | rfl
  · rfl
  · exact exec_setup_class rfl s

/-- P2 with a handler that ends the step: nothing is sent. -/
theorem classIn_ended {p : Port} {handler : State → Proc} {length : Nat} {s t : State}
    (hl : length ≤ s.params.ctrlBufCap) (hh : handler s = .ended t) : classIn p handler length s = .ended t := by
  rw [classIn, if_pos hl, hh, Proc.andThen_of_ended]

/-- A halted reconfiguration after bytes (in a SETUP, none) were stored in the control buffer and the armed receive
was cleared. -/
theorem haltedReconfiguration_of {s : State} {p : Port} (data : List Byte) :
    HaltedReconfiguration s
      (haltedReconfigurationState p (parsedState p (setCtrlRxArmed none (s.store .ctrlBuf p 0 data)))) p := by
  refine ⟨rfl, ?port, fun hd => ⟨?_, ?_⟩, fun hd => ⟨?_, ?_⟩, ?otherPort, ?otherChan, rfl, rfl, rfl,
    ⟨rfl, rfl, rfl, rfl⟩, rfl⟩
  all_goals simp_all [haltedReconfigurationState, failedReconfigurationActions, Emits, State.chan, State.port,
    State.modPort, emit, raise, setFatal]

/-! ### The data stage of a line-coding request -/

/-- The state in which the pending command of a data stage runs: its bytes stored, the receive done (R127). -/
def dataStageState (s : State) (p : Port) (data : List Byte) : State :=
  setCtrlRxArmed none (s.store .ctrlBuf p 0 data)

@[simp] theorem dataStageState_eq (s : State) (p : Port) (data : List Byte) :
    dataStageState s p data = setCtrlRxArmed none (s.store .ctrlBuf p 0 data) := rfl

theorem dataStageState_bytesAt (s : State) (p : Port) (data : List Byte) :
    (dataStageState s p data).bytesAt .ctrlBuf p 0 data.length = data :=
  s.store_bytesAt_same .ctrlBuf p 0 data

theorem dataStageState_sameBytesOutside (s : State) (p : Port) (data : List Byte) :
    SameBytesOutside s (dataStageState s p data) .ctrlBuf p 0 data.length :=
  SameBytesOutside.store s .ctrlBuf p 0 data

section DataStage

variable {s : State} {p : Port} {data : List Byte} {c : PendingCommand}

/-- The data stage of a pending command is that command's `Control` (R127, R128). -/
theorem exec_ctrlDataComplete_pending (hf : s.fatal = false)
    (harmed : s.ctrlRxArmed = some { port := p, length := data.length }) (hlen : data.length ≤ s.params.ctrlBufCap)
    (hpend : (s.port p).pendingCommand = some c) :
    exec (.ctrlDataComplete data) s =
      ((control p c.opcode (dataStageState s p data)).andThen fun t => .run (setPending p none t)).outcome := by
  rw [exec_ctrlDataComplete_armed hf harmed hlen]
  exact congrArg Proc.outcome (processPending_some hpend)

/-- A `SET_LINE_CODING` data stage, both answers yes (R133). -/
theorem exec_ctrlDataComplete_set (hf : s.fatal = false) (hv : s.params.Valid)
    (harmed : s.ctrlRxArmed = some { port := p, length := data.length }) (hlen : data.length ≤ s.params.ctrlBufCap)
    (hpend : (s.port p).pendingCommand = some c) (hop : c.opcode = 0x20)
    (hd : s.draws.deinitOk.get p = true) (hi : s.draws.initOk.get p = true) :
    exec (.ctrlDataComplete data) s =
      .next (setPending p none (reconfiguredState p (parsedState p (dataStageState s p data)))) := by
  rw [exec_ctrlDataComplete_pending hf harmed hlen hpend, hop, control_set,
    setLineCodingOp_ok (u := dataStageState s p data) hv.2.1 hd hi]
  rfl

/-- A `SET_LINE_CODING` data stage with a failing answer: the command stays pending (R134, R128). -/
theorem exec_ctrlDataComplete_setFails (hf : s.fatal = false) (hv : s.params.Valid)
    (harmed : s.ctrlRxArmed = some { port := p, length := data.length }) (hlen : data.length ≤ s.params.ctrlBufCap)
    (hpend : (s.port p).pendingCommand = some c) (hop : c.opcode = 0x20)
    (h : s.draws.deinitOk.get p = false ∨ s.draws.initOk.get p = false) :
    exec (.ctrlDataComplete data) s =
      .next (haltedReconfigurationState p (parsedState p (dataStageState s p data))) := by
  rw [exec_ctrlDataComplete_pending hf harmed hlen hpend, hop, control_set,
    setLineCodingOp_fails (u := dataStageState s p data) hv.2.1 h]
  rfl

/-- A `GET_LINE_CODING` data stage: the line coding is written over the head of what arrived (R136). -/
theorem exec_ctrlDataComplete_get (hf : s.fatal = false) (hv : s.params.Valid)
    (harmed : s.ctrlRxArmed = some { port := p, length := data.length }) (hlen : data.length ≤ s.params.ctrlBufCap)
    (hpend : (s.port p).pendingCommand = some c) (hop : c.opcode = 0x21) :
    exec (.ctrlDataComplete data) s = .next (setPending p none (readBackState p (dataStageState s p data))) := by
  rw [exec_ctrlDataComplete_pending hf harmed hlen hpend, hop, control_get,
    getLineCodingOp_eq (s := dataStageState s p data) hv.2.1]
  rfl

/-- A `SET_LINE_CODING` data stage that does not halt the block had both answers yes. -/
theorem exec_ctrlDataComplete_set_alive {t : State} (hv : s.params.Valid)
    (harmed : s.ctrlRxArmed = some { port := p, length := data.length }) (hlen : data.length ≤ s.params.ctrlBufCap)
    (hpend : (s.port p).pendingCommand = some c) (hop : c.opcode = 0x20)
    (h : exec (.ctrlDataComplete data) s = .next t) (ht : t.fatal = false) :
    t = setPending p none (reconfiguredState p (parsedState p (dataStageState s p data))) := by
  have hf : s.fatal = false := alive_of_exec h (by simp)
  by_cases hok : s.draws.deinitOk.get p = true ∧ s.draws.initOk.get p = true
  · rw [exec_ctrlDataComplete_set hf hv harmed hlen hpend hop hok.1 hok.2] at h
    exact (Host.Outcome.next.inj h).symm
  · rw [exec_ctrlDataComplete_setFails hf hv harmed hlen hpend hop
      (by rwa [Classical.not_and_iff_not_or_not, Bool.not_eq_true, Bool.not_eq_true] at hok)] at h
    cases h
    cases ht

/-- A data stage that holds the seven bytes leaves their line coding. -/
theorem parsedState_dataStage (hlen : data.length = 7) :
    ((parsedState p (dataStageState s p data)).port p).lineCoding = lineCodingOfList data := by
  have hbytes := dataStageState_bytesAt s p data
  rw [hlen] at hbytes
  rw [parsedState, hbytes]
  simp

end DataStage

/-- The rest of a data stage behind its first seven bytes survives GET_LINE_CODING. -/
theorem readBackState_bytesAt_rest (s : State) (p : Port) (data : List Byte) :
    (readBackState p (dataStageState s p data)).bytesAt .ctrlBuf p 7 (data.length - 7) = data.drop 7 := by
  have hrest : (readBackState p (dataStageState s p data)).bytesAt .ctrlBuf p 7 (data.length - 7) =
      (dataStageState s p data).bytesAt .ctrlBuf p 7 (data.length - 7) :=
    State.store_bytesAt_other _ _ _ _ _ _ _ _ _ (.inr (.inr le_rfl))
  rw [hrest]
  by_cases h : 7 ≤ data.length
  · have hall := dataStageState_bytesAt s p data
    conv_lhs at hall => rw [← Nat.add_sub_of_le h, State.bytesAt_add, Nat.zero_add]
    conv_rhs => rw [← hall]
    exact (List.drop_left' (State.bytesAt_length ..)).symm
  · rw [Nat.sub_eq_zero_of_le (by omega), List.drop_of_length_le (by omega)]
    rfl

theorem SameBytesOutside.trans_max {s t u : State} {b : Buffer} {p : Port} {m n : Nat}
    (h₁ : SameBytesOutside s t b p 0 n) (h₂ : SameBytesOutside t u b p 0 m) :
    SameBytesOutside s u b p 0 (max m n) := fun b' q i hi =>
  (h₂ b' q i fun h => hi ⟨h.1, h.2.1, by omega⟩).trans (h₁ b' q i fun h => hi ⟨h.1, h.2.1, by omega⟩)

/-! ### The line-coding requests on P1 and P2 -/

section LineCodingRequests

variable {s : State} {r : ClassRequest} {p : Port}

/-- P1 or P2, with a handler that returns. -/
theorem classStep_served {opcode : Byte} {handler : Port → State → Proc} {t : State} (hf : s.fatal = false)
    (hv : s.params.Valid) (hr : Routed s r.wIndex p)
    (hpath : r.wLength = 0 ∨ (r.wLength.toNat ≤ s.params.ctrlBufCap ∧ r.dir = .deviceToHost))
    (hh : handler p (setCtrlRxArmed none s) = .run t) (ht : t.params = s.params) :
    (classStep opcode handler r s).outcome = .next (if r.wLength = 0 then t
      else emit (.ctrlSend (t.bytesAt .ctrlBuf p 0 r.wLength.toNat)) t) := by
  by_cases h0 : r.wLength = 0
  · rw [classStep_noData hf hv hr h0, hh, if_pos h0, Proc.outcome_of_run]
  · obtain ⟨hlen, hdir⟩ := hpath.resolve_left h0
    rw [classStep_in hf hv hr h0 hdir, classIn_eq (s := setCtrlRxArmed none s) hlen hh ht, if_neg h0,
      Proc.outcome_of_run]

/-- P1 or P2, with a handler that halts the block: nothing is sent. -/
theorem classStep_ended {opcode : Byte} {handler : Port → State → Proc} {t : State} (hf : s.fatal = false)
    (hv : s.params.Valid) (hr : Routed s r.wIndex p)
    (hpath : r.wLength = 0 ∨ (r.wLength.toNat ≤ s.params.ctrlBufCap ∧ r.dir = .deviceToHost))
    (hh : handler p (setCtrlRxArmed none s) = .ended t) : (classStep opcode handler r s).outcome = .next t := by
  by_cases h0 : r.wLength = 0
  · rw [classStep_noData hf hv hr h0, hh, Proc.outcome_of_ended]
  · obtain ⟨hlen, hdir⟩ := hpath.resolve_left h0
    rw [classStep_in hf hv hr h0 hdir, classIn_ended (s := setCtrlRxArmed none s) hlen hh, Proc.outcome_of_ended]

end LineCodingRequests

/-- A class request with data longer than the control buffer (U5). -/
theorem exec_setup_tooLong {s : State} {pkt : SetupPacket} {p : Port} (hf : s.fatal = false) (hv : s.params.Valid)
    (hr : Routed s pkt.wIndex p) (hclass : pkt.reqType = .classType) (hlong : s.params.ctrlBufCap < pkt.wLength.toNat) :
    exec (.setup pkt) s = .refused .classRequestTooLong := by
  have h0 : pkt.wLength ≠ 0 := fun h => by simp [h] at hlong
  have hcap : ¬pkt.wLength.toNat ≤ (setCtrlRxArmed none s).params.ctrlBufCap := Nat.not_le.mpr hlong
  rw [exec_setup_class hclass, classStep, setupStep_routed hf hv (show Routed s pkt.classRequest.wIndex p from hr)]
  cases hdir : pkt.dir with
  | deviceToHost =>
    rw [SetupPacket.classRequest, hdir, classPath_in h0, classIn, if_neg hcap, Proc.outcome_of_refused]
  | hostToDevice =>
    rw [SetupPacket.classRequest, hdir, classPath_out h0, classOut_eq, if_neg hcap, Proc.outcome_of_refused]

end Sys2Proof.Machine

namespace Sys2Proof.Proofs

open Sys2Proof.Machine

/-- Settles O13: every event but RESET begins with the test of `fatal`, and RESET clears it. -/
theorem haltedTakesOnlyReset : Obligations.HaltedTakesOnlyReset := fun s hf =>
  ⟨fun _ hi => exec_halted hf hi, resetAll s, rfl, rfl⟩

/-- Settles O14: path by path and code by code, each row's step is the one SETUP selects. -/
theorem setupFormsAgree : Obligations.SetupFormsAgree := fun pkt s =>
  ⟨exec_decodePath pkt s, fun _ h => exec_of_decodeClass h s⟩

/-- Settles O22: all rows route first, and the routing fails. -/
theorem unroutableRequestIsDropped : Obligations.UnroutableRequestIsDropped := by
  intro s i wIndex hf hi hr
  obtain ⟨pkt, hpkt, rfl⟩ := Option.map_eq_some_iff.mp hi
  exact exec_request_unroutable hf hpkt hr

/-- Settles O25: with neither line-coding code the handler has no effect, so SETUP and CLASS_UNKNOWN have one step,
and the path's row has the step of SETUP. -/
theorem otherClassRequestsFollowTheirPath : Obligations.OtherClassRequestsFollowTheirPath := by
  intro s pkt p hf hv hr hclass hset hget
  have hsetup := exec_setup_noEffect hclass hset hget s
  have hpathRow := (exec_decodePath pkt s).trans hsetup
  refine ⟨fun h0 i hi => ?noData, fun h0 hlen hdir i hi => ?dataIn, fun h0 hlen hdir => ?dataOut⟩
  case noData =>
    have hstep := classStep_noData (r := pkt.classRequest) (opcode := pkt.bRequest) (handler := fun _ => noEffectOp)
      hf hv hr h0
    rw [decodePath_noData hclass h0] at hpathRow
    simp only [List.mem_cons, List.not_mem_nil, or_false] at hi
    rcases hi with rfl | rfl | rfl
    · rw [hsetup, hstep]; rfl
    · rw [hpathRow, hstep]; rfl
    · exact congrArg Proc.outcome hstep
  case dataIn =>
    have hstep := classStep_in_noEffect (r := pkt.classRequest) (opcode := pkt.bRequest) hf hv hr h0 hlen hdir
    rw [decodePath_in hclass h0 hdir] at hpathRow
    simp only [List.mem_cons, List.not_mem_nil, or_false] at hi
    rcases hi with rfl | rfl | rfl
    · rw [hsetup, hstep]; rfl
    · rw [hpathRow, hstep]; rfl
    · exact congrArg Proc.outcome hstep
  case dataOut =>
    exact congrArg Proc.outcome (classStep_out (r := pkt.classRequest) hf hv hr h0 hlen hdir)

/-- Settles O26: the handler leaves `readBackState`, from which P2 sends. -/
theorem getLineCodingSerialises : Obligations.GetLineCodingSerialises := by
  intro s r p hf hv hr
  refine ⟨fun i hi hpath => ?_, fun h0 hlen hdir => congrArg Proc.outcome (classStep_out hf hv hr h0 hlen hdir)⟩
  refine ⟨_, (exec_getLineCoding hi s).trans (classStep_served hf hv hr hpath
    (getLineCodingOp_eq (s := setCtrlRxArmed none s) hv.2.1) rfl), ?_⟩
  have hbytes := readBackState_bytesAt p (setCtrlRxArmed none s)
  have houtside := readBackState_sameBytesOutside p (setCtrlRxArmed none s)
  split
  · exact ⟨hbytes, houtside, fun q => ⟨rfl, rfl⟩, rfl, ⟨rfl, rfl, rfl⟩, ⟨rfl, rfl, rfl, rfl⟩,
      (List.append_nil _).symm, (List.append_nil _).symm⟩
  · exact ⟨hbytes, houtside, fun q => ⟨rfl, rfl⟩, rfl, ⟨rfl, rfl, rfl⟩, ⟨rfl, rfl, rfl, rfl⟩,
      (List.append_nil _).symm, rfl⟩

/-- Settles O27: the handler leaves `reconfiguredState` of the parsed line coding, from which P2 sends. -/
theorem setLineCodingReconfigures : Obligations.SetLineCodingReconfigures := by
  intro s r p hf hv hr
  refine ⟨fun i hi hd hinit hpath => ?_, fun h0 hlen hdir =>
    congrArg Proc.outcome (classStep_out hf hv hr h0 hlen hdir)⟩
  refine ⟨_, (exec_setLineCoding hi s).trans (classStep_served hf hv hr hpath
    (setLineCodingOp_ok (u := setCtrlRxArmed none s) hv.2.1 hd hinit) rfl), ?_⟩
  have hbytes := lineCodingBytes_parsed p (setCtrlRxArmed none s)
  refine ⟨?_, ?_, ?_, ?_, ?_, ?_, ?_, ?_, ?_, ?_, ?_⟩
  all_goals split <;> simp_all [SameBytes, SameFlags, SameEnv, Raises, Emits]

/-- Settles O31: SETUP of such a packet has the step of P4's row. -/
theorem getInterfaceAnswersZero : Obligations.GetInterfaceAnswersZero := by
  intro s pkt p hf hv hr hstd hcode i hi
  rcases List.mem_pair.mp hi with rfl | rfl
  · rw [← exec_decodePath, decodePath_getInterface hstd hcode]
    exact exec_pathStdGetInterface_routed hf hv hr
  · exact exec_pathStdGetInterface_routed hf hv hr

/-- Settles O33: the data stage leaves `reconfiguredState` of the parsed line coding, the command done. -/
theorem dataStageSetsLineCoding : Obligations.DataStageSetsLineCoding := by
  intro s p data c hf hv harmed hlen hpend hop hd hi
  refine ⟨_, exec_ctrlDataComplete_set hf hv harmed hlen hpend hop hd hi, ?_⟩
  have hbytes := lineCodingBytes_parsed p (dataStageState s p data)
  have hstored := dataStageState_bytesAt s p data
  have houtside := dataStageState_sameBytesOutside s p data
  refine ⟨?_, ?_, ?_, ?_, ?_, ?_, ?_, ?_, ?_, ?_, ?_, ?_⟩
  all_goals simp_all [SameBytesOutside, SameFlags, SameEnv, Raises, Emits]

/-- Settles O34: with no line-coding code the bytes are kept and the wait ends; GET_LINE_CODING writes over the first
seven of them. -/
theorem dataStageOfOtherRequests : Obligations.DataStageOfOtherRequests := by
  intro s p data c hf hv harmed hlen hpend hset
  by_cases hget : c.opcode = 0x21
  · refine ⟨_, exec_ctrlDataComplete_get hf hv harmed hlen hpend hget, fun h => absurd hget h, fun _ => ?_, rfl, rfl,
      rfl, ⟨rfl, rfl, rfl⟩, ⟨rfl, rfl, rfl, rfl⟩, (List.append_nil _).symm, (List.append_nil _).symm⟩
    exact ⟨readBackState_bytesAt p (dataStageState s p data), readBackState_bytesAt_rest s p data,
      (dataStageState_sameBytesOutside s p data).trans_max (readBackState_sameBytesOutside p (dataStageState s p data))⟩
  · exact ⟨discardedState s p data, exec_ctrlDataComplete_noEffect hf harmed hlen hpend hset hget,
      fun _ => ⟨discardedState_bytesAt s p data, discardedState_sameBytesOutside s p data⟩, fun h => absurd h hget,
      rfl, rfl, rfl, ⟨rfl, rfl, rfl⟩, ⟨rfl, rfl, rfl, rfl⟩, (List.append_nil _).symm, (List.append_nil _).symm⟩

/-- Settles O35: a failing answer leaves `haltedReconfigurationState`, in the data stage after its bytes are stored,
and in a SETUP after none. -/
theorem reconfigurationFailureHalts : Obligations.ReconfigurationFailureHalts := by
  constructor
  · intro s p data c hf hv harmed hlen hpend hop hfail
    refine ⟨_, exec_ctrlDataComplete_setFails hf hv harmed hlen hpend hop hfail, haltedReconfiguration_of data, ?_,
      dataStageState_bytesAt s p data, dataStageState_sameBytesOutside s p data⟩
    exact lineCodingBytes_parsed p (dataStageState s p data)
  · intro s r p hf hv hr hfail hpath i hi
    have hstep := classStep_ended (opcode := 0x20) hf hv hr hpath
      (setLineCodingOp_fails (u := setCtrlRxArmed none s) hv.2.1 hfail)
    have hexec : exec i s = (classStep 0x20 setLineCodingOp r s).outcome := by
      rcases List.mem_cons.mp hi with rfl | hi
      · rfl
      · rcases List.mem_pair.mp hi with rfl | rfl
        · exact exec_setup_class rfl s
        · exact (exec_decodePath _ s).trans (exec_setup_class rfl s)
    have hhalted := haltedReconfiguration_of (s := s) (p := p) []
    rw [State.store_nil] at hhalted
    exact ⟨_, hexec.trans hstep, hhalted, lineCodingBytes_parsed p (setCtrlRxArmed none s), fun _ _ _ => rfl⟩

/-- Settles O36: the data stage leaves the line coding of `x`, the request serialises it, and P2 sends all seven
bytes. -/
theorem lineCodingRoundTrip : Obligations.LineCodingRoundTrip := by
  intro s t p x c recipient wValue wIndex hv harmed hx hpend hop hset ht hr
  have hlen : x.length ≤ s.params.ctrlBufCap := hx ▸ hv.2.1
  have hstate := exec_ctrlDataComplete_set_alive hv (hx ▸ harmed) hlen hpend hop hset ht
  have hcoding : (t.port p).lineCoding = lineCodingOfList x := by
    rw [hstate, ← parsedState_dataStage (s := s) (p := p) hx]
    simp
  have hvt : t.params.Valid := by rw [hstate]; exact hv
  have hget := exec_getLineCoding (r := ⟨.deviceToHost, recipient, wValue, wIndex, 7⟩)
    (List.mem_pair.mpr (.inr rfl)) t
  refine ⟨_, hget.trans (classStep_served ht hvt hr (.inr ⟨hvt.2.1, rfl⟩)
    (getLineCodingOp_eq (s := setCtrlRxArmed none t) hvt.2.1) rfl), ?_⟩
  have hsent : (readBackState p (setCtrlRxArmed none t)).bytesAt .ctrlBuf p 0 7 = x := by
    rw [readBackState_bytesAt, setCtrlRxArmed_port, hcoding, lineCodingBytes_ofList hx]
  exact congrArg (fun bytes => t.out ++ [.ctrlSend bytes]) hsent

/-- Settles O37: each of the two data stages that did not halt leaves the line coding of the same `x`, reconfigured;
the SETUP between them only arms. -/
theorem repeatedSetLineCoding : Obligations.RepeatedSetLineCoding := by
  intro s t u v p x c recipient wValue wIndex hv harmed hx hpend hop hset hr harm hagain hvf
  have htf : t.fatal = false := alive_of_exec harm (by simp)
  have hlen : x.length ≤ s.params.ctrlBufCap := hx ▸ hv.2.1
  have ht := exec_ctrlDataComplete_set_alive hv (hx ▸ harmed) hlen hpend hop hset htf
  have hvt : t.params.Valid := by rw [ht]; exact hv
  have hu : u = armedState t p 0x20 7 := by
    have harms := (classOutArmsDataStage t ⟨.hostToDevice, .classType, recipient, 0x20, wValue, wIndex, 7⟩ p htf hvt hr
      rfl rfl (show (7 : Half) ≠ 0 by decide) hvt.2.1).1 _ (List.mem_cons_self ..)
    exact Host.Outcome.next.inj (harm.symm.trans harms)
  have hvu : u.params.Valid := by rw [hu]; exact hvt
  have hlenu : x.length ≤ u.params.ctrlBufCap := hx ▸ hvu.2.1
  have hv' := exec_ctrlDataComplete_set_alive (c := ⟨0x20, 7⟩) hvu (by rw [hx, hu]; rfl) hlenu
    (by rw [hu]; simp [armedState, State.port]) rfl hagain hvf
  have htc := parsedState_dataStage (s := s) (p := p) hx
  have hvc := parsedState_dataStage (s := u) (p := p) hx
  rw [ht, hv']
  refine ⟨?_, ?_, ?_, ?_⟩
  all_goals simp_all [Emits]

/-- Settles O42: each event's guard is false in the state at hand, and its refusal is the guard's own. -/
theorem disabledEventsAreRefused : Obligations.DisabledEventsAreRefused := by
  intro s hf
  refine ⟨fun pkt p hv hr hclass hlong => ?request, fun data hnone => ?notArmed, fun data a harmed hne => ?length,
    fun ep data hno => ?noEndpoint, fun p data hv hc harmed => ?outNotArmed,
    fun p data hv hc harmed hlong => ?outTooLong, fun c hidle => ?notSending,
    fun c hbusy hend => ?allSent, fun c hbusy hleft => ?bytesLeft, fun htick => ?noTick, fun c kind h1 h2 => ?kind⟩
  case request =>
    have hsetup := exec_setup_tooLong hf hv hr hclass hlong
    exact ⟨hsetup, (exec_decodePath pkt s).trans hsetup⟩
  case notArmed => simp [exec, execCtrlDataComplete, hf, hnone]
  case length => simp [exec, execCtrlDataComplete, hf, harmed, hne]
  case noEndpoint => simp [exec, execDataOutComplete, hf, routeOut_eq_none.mpr hno]
  case outNotArmed => simp [exec, execDataOutComplete, hf, (routeOut_eq_some hv).mpr ⟨hc, rfl⟩, harmed]
  case outTooLong =>
    simp [exec, execDataOutComplete, hf, (routeOut_eq_some hv).mpr ⟨hc, rfl⟩, harmed, Nat.not_le.mpr hlong]
  case notSending => constructor <;> simp [exec, execUartTxByte, execUartTxComplete, hf, hidle]
  case allSent => simp [exec, execUartTxByte, hf, hbusy, Nat.not_lt.mpr hend]
  case bytesLeft => simp [exec, execUartTxComplete, hf, hbusy, hleft]
  case noTick => simp [exec, execSchedRun, hf, htick]
  case kind =>
    have hkind : lineErrorOf kind = none := by rw [lineErrorOf, if_neg h1, if_neg h2]
    simp [exec, execUartError, hf, hkind]

end Sys2Proof.Proofs
end

section
/-! The lifecycle events (spec/43_dispatcher_lifecycle.md): the states each outcome of a channel's init and deinit
leaves, and from them RESET, CONFIGURE and DECONFIGURE with every combination of answers. -/

namespace Sys2Proof.Machine

/-! ### The states the lifecycle operations leave -/

theorem createdPort_initial : CreatedPort PortRegs.initial false := ⟨rfl, rfl, rfl, rfl, rfl, rfl⟩

theorem createdPort_armed : CreatedPort { PortRegs.initial with outArmed := true } true :=
  ⟨rfl, rfl, rfl, rfl, rfl, rfl⟩

/-- The framing of the default line coding (R36, R47). -/
@[simp] theorem cfgOf_initial : cfgOf PortRegs.initial.lineCoding = defaultFraming := rfl

/-- The channel registers at reset, written out (R47). -/
theorem chanRegs_initial (ringCap : Nat) :
    ChanRegs.initial ringCap =
      { rxRemaining := ringCap, rxReadCursor := 0, dmaRunning := false, uartCfg := defaultFraming,
        uartTxBusy := false, uartTxLen := 0, uartTxPos := 0, errOverrun := false, errFraming := false } := rfl

/-- CONFIGURE up to the channels: the endpoints opened and the ports created (R223, R225). -/
def createdState (s : State) : State :=
  { s with
    ports := Two.both PortRegs.initial
    out := s.out ++ (openActionsOf s .p0 ++ openActionsOf s .p1) }

theorem createdState_eq (s : State) : portCreate .p1 (portCreate .p0 (openAll s)) = createdState s := by
  rw [openAll_eq]
  rfl

@[simp] theorem createdState_port (s : State) (p : Port) : (createdState s).port p = PortRegs.initial :=
  Two.get_both _ _
@[simp] theorem createdState_chan (s : State) (c : Port) : (createdState s).chan c = s.chan c := rfl
@[simp] theorem createdState_configured (s : State) : (createdState s).configured = s.configured := rfl
@[simp] theorem createdState_fatal (s : State) : (createdState s).fatal = s.fatal := rfl
@[simp] theorem createdState_tickFlag (s : State) : (createdState s).tickFlag = s.tickFlag := rfl
@[simp] theorem createdState_ctrlRxArmed (s : State) : (createdState s).ctrlRxArmed = s.ctrlRxArmed := rfl
@[simp] theorem createdState_params (s : State) : (createdState s).params = s.params := rfl
@[simp] theorem createdState_resets (s : State) : (createdState s).resets = s.resets := rfl
@[simp] theorem createdState_inbox (s : State) : (createdState s).inbox = s.inbox := rfl
@[simp] theorem createdState_draws (s : State) : (createdState s).draws = s.draws := rfl
@[simp] theorem createdState_raised (s : State) : (createdState s).raised = s.raised := rfl
@[simp] theorem createdState_bufs (s : State) : (createdState s).bufs = s.bufs := rfl
@[simp] theorem createdState_byteAt (s : State) (b : Buffer) (p : Port) (i : Nat) :
    (createdState s).byteAt b p i = s.byteAt b p i := rfl
@[simp] theorem createdState_out (s : State) :
    (createdState s).out = s.out ++ (openActionsOf s .p0 ++ openActionsOf s .p1) := rfl

/-- A channel up to its UART init: its line registers and its framing (R225). -/
def framedState (c : Port) (s : State) : State :=
  emit (.uartInit c (cfgOf (s.port c).lineCoding)) (s.modChan c fun r => { r with
    uartTxBusy := false, uartTxLen := 0, uartTxPos := 0, uartCfg := cfgOf (s.port c).lineCoding })

@[simp] theorem framedState_eq (c : Port) (s : State) :
    framedState c s = emit (.uartInit c (cfgOf (s.port c).lineCoding)) (s.modChan c fun r => { r with
      uartTxBusy := false, uartTxLen := 0, uartTxPos := 0, uartCfg := cfgOf (s.port c).lineCoding }) := rfl

/-- An initialised channel: its DMA engine started. -/
def initedState (c : Port) (s : State) : State := emit (.dmaStart c) (rearm c (framedState c s))

@[simp] theorem initedState_eq (c : Port) (s : State) :
    initedState c s = emit (.dmaStart c) (rearm c (framedState c s)) := rfl

theorem channelInit_ok {c : Port} {s : State} (h : s.draws.initOk.get c = true) :
    channelInit c s = .run (initedState c s) := by
  rw [channelInit_eq, if_pos h]
  cases c <;> simp [emit, State.modChan, Two.modify]

theorem channelInit_fails {c : Port} {s : State} (h : s.draws.initOk.get c = false) :
    channelInit c s = .ended (haltedState c (framedState c s)) := by
  rw [channelInit_eq, if_neg (by simp [h])]
  rfl

/-- A channel stopped (R227). -/
def stoppedState (c : Port) (s : State) : State :=
  emit (.uartDeinit c) (s.modChan c fun r => { r with dmaRunning := false })

@[simp] theorem stoppedState_eq (c : Port) (s : State) :
    stoppedState c s = emit (.uartDeinit c) (s.modChan c fun r => { r with dmaRunning := false }) := rfl

theorem channelDeinit_ok {c : Port} {s : State} (h : s.draws.deinitOk.get c = true) :
    channelDeinit c s = .run (stoppedState c s) := by
  rw [channelDeinit_eq]
  exact if_pos h

theorem channelDeinit_fails {c : Port} {s : State} (h : s.draws.deinitOk.get c = false) :
    channelDeinit c s = .ended (haltedState c (stoppedState c s)) := by
  rw [channelDeinit_eq]
  exact if_neg (by simp [h])

/-- DECONFIGURE up to the channels: the endpoints closed (R227). -/
def closedState (s : State) : State := { s with out := s.out ++ (closeActionsOf s .p0 ++ closeActionsOf s .p1) }

theorem closedState_eq (s : State) : closePort .p1 (closePort .p0 s) = closedState s := closePorts_eq s

@[simp] theorem closedState_configured (s : State) : (closedState s).configured = s.configured := rfl
@[simp] theorem closedState_fatal (s : State) : (closedState s).fatal = s.fatal := rfl
@[simp] theorem closedState_tickFlag (s : State) : (closedState s).tickFlag = s.tickFlag := rfl
@[simp] theorem closedState_ctrlRxArmed (s : State) : (closedState s).ctrlRxArmed = s.ctrlRxArmed := rfl
@[simp] theorem closedState_ports (s : State) : (closedState s).ports = s.ports := rfl
@[simp] theorem closedState_chans (s : State) : (closedState s).chans = s.chans := rfl
@[simp] theorem closedState_bufs (s : State) : (closedState s).bufs = s.bufs := rfl
@[simp] theorem closedState_params (s : State) : (closedState s).params = s.params := rfl
@[simp] theorem closedState_resets (s : State) : (closedState s).resets = s.resets := rfl
@[simp] theorem closedState_inbox (s : State) : (closedState s).inbox = s.inbox := rfl
@[simp] theorem closedState_draws (s : State) : (closedState s).draws = s.draws := rfl
@[simp] theorem closedState_raised (s : State) : (closedState s).raised = s.raised := rfl
@[simp] theorem closedState_port (s : State) (p : Port) : (closedState s).port p = s.port p := rfl
@[simp] theorem closedState_chan (s : State) (c : Port) : (closedState s).chan c = s.chan c := rfl
@[simp] theorem closedState_byteAt (s : State) (b : Buffer) (p : Port) (i : Nat) :
    (closedState s).byteAt b p i = s.byteAt b p i := rfl
@[simp] theorem closedState_out (s : State) :
    (closedState s).out = s.out ++ (closeActionsOf s .p0 ++ closeActionsOf s .p1) := rfl

@[simp] theorem armOut_eq (p : Port) (s : State) :
    armOut p s = emit (.armReceive (s.params.epOut.get p)) (s.modPort p fun r => { r with outArmed := true }) := rfl

/-- The state a successful CONFIGURE leaves (R221, R224). -/
def configuredState (s : State) : State :=
  emit (.configResult true) (setConfigured true
    (armOut .p1 (armOut .p0 (initedState .p1 (initedState .p0 (createdState s))))))

/-! ### The events -/

section Events

variable {s : State}

theorem exec_configure_configured (hf : s.fatal = false) (hc : s.configured = true) :
    exec .configure s = .next s := by
  simp [exec, execConfigure, hf, hc]

theorem exec_configure_noMemory (hf : s.fatal = false) (hc : s.configured = false) (ha : s.draws.allocOk = false) :
    exec .configure s = .next (emit (.configResult false) (raise .allocationFailure s)) := by
  simp [exec, execConfigure, hf, hc, ha]

/-- CONFIGURE with memory is the two channels' init, then the arming of the endpoints. -/
theorem exec_configure_alloc (hf : s.fatal = false) (hc : s.configured = false) (ha : s.draws.allocOk = true) :
    exec .configure s = (((channelInit .p0 (createdState s)).andThen (channelInit .p1)).andThen fun t =>
      .run (emit (.configResult true) (setConfigured true (armOut .p1 (armOut .p0 t))))).outcome := by
  rw [exec, execConfigure, whenAlive_alive hf, if_neg (by simp [hc]), if_pos ha, createdState_eq]

theorem exec_configure_haltsFirst (hf : s.fatal = false) (hc : s.configured = false) (ha : s.draws.allocOk = true)
    (hi : s.draws.initOk.get .p0 = false) :
    exec .configure s = .next (haltedState .p0 (framedState .p0 (createdState s))) := by
  rw [exec_configure_alloc hf hc ha, channelInit_fails (s := createdState s) hi]
  rfl

theorem exec_configure_haltsSecond (hf : s.fatal = false) (hc : s.configured = false) (ha : s.draws.allocOk = true)
    (h0 : s.draws.initOk.get .p0 = true) (h1 : s.draws.initOk.get .p1 = false) :
    exec .configure s = .next (haltedState .p1 (framedState .p1 (initedState .p0 (createdState s)))) := by
  rw [exec_configure_alloc hf hc ha, channelInit_ok (s := createdState s) h0, Proc.andThen_of_run,
    channelInit_fails (s := initedState .p0 (createdState s)) h1]
  rfl

theorem exec_configure_ok (hf : s.fatal = false) (hc : s.configured = false) (ha : s.draws.allocOk = true)
    (h0 : s.draws.initOk.get .p0 = true) (h1 : s.draws.initOk.get .p1 = true) :
    exec .configure s = .next (configuredState s) := by
  rw [exec_configure_alloc hf hc ha, channelInit_ok (s := createdState s) h0, Proc.andThen_of_run,
    channelInit_ok (s := initedState .p0 (createdState s)) h1]
  rfl

theorem exec_deconfigure_unconfigured (hf : s.fatal = false) (hc : s.configured = false) :
    exec .deconfigure s = .next s := by
  simp [exec, execDeconfigure, hf, hc]

/-- DECONFIGURE while configured is the two channels' deinit, then the teardown. -/
theorem exec_deconfigure_configured (hf : s.fatal = false) (hc : s.configured = true) :
    exec .deconfigure s = (((channelDeinit .p0 (closedState s)).andThen (channelDeinit .p1)).andThen fun t =>
      .run (setConfigured false (teardown t))).outcome := by
  rw [exec, execDeconfigure, whenAlive_alive hf, if_pos hc, closedState_eq]

theorem exec_deconfigure_haltsFirst (hf : s.fatal = false) (hc : s.configured = true)
    (hd : s.draws.deinitOk.get .p0 = false) :
    exec .deconfigure s = .next (haltedState .p0 (stoppedState .p0 (closedState s))) := by
  rw [exec_deconfigure_configured hf hc, channelDeinit_fails (s := closedState s) hd]
  rfl

theorem exec_deconfigure_haltsSecond (hf : s.fatal = false) (hc : s.configured = true)
    (h0 : s.draws.deinitOk.get .p0 = true) (h1 : s.draws.deinitOk.get .p1 = false) :
    exec .deconfigure s = .next (haltedState .p1 (stoppedState .p1 (stoppedState .p0 (closedState s)))) := by
  rw [exec_deconfigure_configured hf hc, channelDeinit_ok (s := closedState s) h0, Proc.andThen_of_run,
    channelDeinit_fails (s := stoppedState .p0 (closedState s)) h1]
  rfl

theorem exec_deconfigure_ok (hf : s.fatal = false) (hc : s.configured = true)
    (h0 : s.draws.deinitOk.get .p0 = true) (h1 : s.draws.deinitOk.get .p1 = true) :
    exec .deconfigure s =
      .next (setConfigured false (teardown (stoppedState .p1 (stoppedState .p0 (closedState s))))) := by
  rw [exec_deconfigure_configured hf hc, channelDeinit_ok (s := closedState s) h0, Proc.andThen_of_run,
    channelDeinit_ok (s := stoppedState .p0 (closedState s)) h1]
  rfl

end Events

/-! ### RESET and the teardown, item by item -/

@[simp] theorem resetAll_port (s : State) (p : Port) : (resetAll s).port p = PortRegs.initial := Two.get_both _ _
@[simp] theorem resetAll_chan (s : State) (c : Port) : (resetAll s).chan c = ChanRegs.initial s.params.ringCap :=
  Two.get_both _ _
theorem resetAll_byteAt (s : State) (b : Buffer) (p : Port) (i : Nat) :
    (resetAll s).byteAt b p i = Config.unwrittenByte (s.resets + 1) b p i := by
  cases b <;> cases p <;> rfl

@[simp] theorem teardown_configured (s : State) : (teardown s).configured = s.configured := rfl
@[simp] theorem teardown_fatal (s : State) : (teardown s).fatal = s.fatal := rfl
@[simp] theorem teardown_tickFlag (s : State) : (teardown s).tickFlag = s.tickFlag := rfl
@[simp] theorem teardown_bufs (s : State) : (teardown s).bufs = s.bufs := rfl
@[simp] theorem teardown_params (s : State) : (teardown s).params = s.params := rfl
@[simp] theorem teardown_resets (s : State) : (teardown s).resets = s.resets := rfl
@[simp] theorem teardown_inbox (s : State) : (teardown s).inbox = s.inbox := rfl
@[simp] theorem teardown_draws (s : State) : (teardown s).draws = s.draws := rfl
@[simp] theorem teardown_out (s : State) : (teardown s).out = s.out := rfl
@[simp] theorem teardown_raised (s : State) : (teardown s).raised = s.raised := rfl
@[simp] theorem teardown_ctrlRxArmed (s : State) : (teardown s).ctrlRxArmed = none := rfl
@[simp] theorem teardown_port (s : State) (p : Port) : (teardown s).port p = PortRegs.initial := Two.get_both _ _
@[simp] theorem teardown_chan (s : State) (c : Port) :
    (teardown s).chan c = teardownChan s.params.ringCap (s.chan c) := by cases c <;> rfl
@[simp] theorem teardown_byteAt (s : State) (b : Buffer) (p : Port) (i : Nat) :
    (teardown s).byteAt b p i = s.byteAt b p i := rfl

end Sys2Proof.Machine

namespace Sys2Proof.Proofs

open Sys2Proof.Machine

/-- Settles O15: RESET leaves `resetAll`, read item by item. -/
theorem resetRestoresEverything : Obligations.ResetRestoresEverything := by
  intro s
  refine ⟨resetAll s, rfl, rfl, rfl, rfl, rfl, fun p => ?_, fun c => resetAll_chan s c, resetAll_byteAt s,
    (List.append_nil _).symm, (List.append_nil _).symm, rfl, rfl, rfl⟩
  rw [resetAll_port]
  exact createdPort_initial

/-- Settles O16: with every answer yes CONFIGURE leaves `configuredState`. -/
theorem configureCreatesBothPairs : Obligations.ConfigureCreatesBothPairs := by
  intro s hf hc ha hi
  refine ⟨configuredState s, exec_configure_ok hf hc ha (hi .p0) (hi .p1), ?_, ?_, ?_, ?_, fun p => ?ports,
    fun c => ?chans, ?_, ?_, ?_, ?_⟩
  case ports =>
    have hport : (configuredState s).port p = { PortRegs.initial with outArmed := true } := by
      cases p <;> simp [configuredState]
    rw [hport]
    exact createdPort_armed
  case chans => cases c <;> simp [configuredState]
  all_goals simp [configuredState, hf, SameBytes, SameEnv, Raises, Emits]

/-- Settles O17: the allocation is the first answer CONFIGURE draws. -/
theorem configureWithoutMemoryFails : Obligations.ConfigureWithoutMemoryFails := fun _ hf hc ha =>
  exec_configure_noMemory hf hc ha

/-- Settles O18: the halt of channel 0 finds no channel initialised, that of channel 1 finds channel 0 so. -/
theorem configureHaltsOnInitFailure : Obligations.ConfigureHaltsOnInitFailure := by
  intro s hf hc ha
  refine ⟨fun h0 => ?first, fun h0 h1 => ?second⟩
  case first =>
    refine ⟨_, exec_configure_haltsFirst hf hc ha h0, ?_, ?_, ?_, ?_, fun p => ?ports, ?_, ?_, ?_, ?_, ?_, ?_⟩
    case ports => simpa using createdPort_initial
    all_goals simp [hc, SameBytes, SameEnv, Raises, Emits]
  case second =>
    refine ⟨_, exec_configure_haltsSecond hf hc ha h0 h1, ?_, ?_, ?_, ?_, fun p => ?ports, ?_, ?_, ?_, ?_, ?_, ?_⟩
    case ports => simpa using createdPort_initial
    all_goals simp [hc, SameBytes, SameEnv, Raises, Emits]

/-- Settles O19: `configured` already has the value the event asks for. -/
theorem repeatedLifecycleEventsDoNothing : Obligations.RepeatedLifecycleEventsDoNothing := fun _ hf =>
  ⟨exec_configure_configured hf, exec_deconfigure_unconfigured hf⟩

/-- Settles O20: both channels stopped, then the teardown. -/
theorem deconfigureTearsDown : Obligations.DeconfigureTearsDown := by
  intro s hf hc hd
  refine ⟨_, exec_deconfigure_ok hf hc (hd .p0) (hd .p1), ?_, ?_, ?_, ?_, fun p => ?ports, fun c => ?chans, ?_, ?_,
    ?_, ?_⟩
  case ports => simpa using createdPort_initial
  case chans => cases c <;> simp [teardownChan, chanRegs_initial]
  all_goals simp [hf, SameBytes, SameEnv, Raises, Emits]

/-- Settles O21: the halt of channel `c` finds the channels before it stopped. -/
theorem deconfigureHaltsOnDeinitFailure : Obligations.DeconfigureHaltsOnDeinitFailure := by
  intro s hf hc
  refine ⟨fun h0 => ?first, fun h0 h1 => ?second⟩
  case first =>
    rw [exec_deconfigure_haltsFirst hf hc h0]
    simp [emit, raise, setFatal, State.modChan]
  case second =>
    rw [exec_deconfigure_haltsSecond hf hc h0 h1]
    simp [emit, raise, setFatal, State.modChan]

end Sys2Proof.Proofs
end

section
/-! The step and its fetch, the bulk data path, the line, the ring, the scheduler and the line errors: the state each
enabled event leaves. -/

namespace Sys2Proof.Machine

/-! ### The fetch -/

theorem step_cons {s : State} {d : Delivery} {rest : List Delivery} {i : Instr} (hin : s.inbox = d :: rest)
    (hd : decode d.record = .ok i) : step s = exec i { s with inbox := rest, draws := d.draws } := by
  simp only [step, fetch_cons hin, hd]

theorem step_undecodable {s : State} {d : Delivery} {rest : List Delivery} {e : DecodeError}
    (hin : s.inbox = d :: rest) (hd : decode d.record = .error e) : step s = .refused (.undecodable e) := by
  simp only [step, fetch_cons hin, hd]

theorem step_idle {s : State} (hin : s.inbox = []) : step s = .next s := by
  simp only [step, fetch_nil hin]

theorem step_withFetchWord {s : State} {nbits w : Nat} {i : Instr} (h : decodeTableWord nbits w = some i) :
    step (s.withFetchWord nbits w) = exec i s := by
  unfold decodeTableWord at h
  split at h
  · next j hj =>
    cases h
    simp only [step, State.withFetchWord, fetch_deliver, hj]
  · cases h

/-! ### The framing (R135) -/

theorem stopOfCode_iff (code : Byte) : stopOfCode code = .two ↔ code = 2 := by
  unfold stopOfCode
  split <;> simp_all

theorem parityOfCode_iff (code : Byte) :
    (parityOfCode code = .odd ↔ code = 1) ∧ (parityOfCode code = .even ↔ code = 2) := by
  unfold parityOfCode
  split
  · simp_all
  · split <;> simp_all

theorem wordLenOfBits_iff (bits : Byte) :
    (wordLenOfBits bits = .seven ↔ bits = 7) ∧ (wordLenOfBits bits = .nine ↔ bits = 9) := by
  unfold wordLenOfBits
  split
  · simp_all
  · split <;> simp_all

/-! ### The bulk path and the line -/

theorem Two.modify_modify_same {α : Type} (t : Two α) (p : Port) (f g : α → α) :
    (t.modify p f).modify p g = t.modify p (fun x => g (f x)) := by cases p <;> rfl

/-- The state after an OUT packet on an armed endpoint (R163, R164). -/
def packetState (s : State) (p : Port) (data : List Byte) : State :=
  { s.store .rxBuf p 0 data with
    ports := s.ports.modify p fun r => { r with rxLength := data.length, outArmed := false }
    chans := s.chans.modify p fun r => { r with
      uartTxLen := data.length, uartTxPos := 0,
      uartTxBusy := if 0 < data.length ∨ s.params.zlpOutRearm = true then true else r.uartTxBusy }
    out := s.out ++ [.uartTxStart p data.length] }

@[simp] theorem packetState_eq (s : State) (p : Port) (data : List Byte) :
    packetState s p data =
      emit (.uartTxStart p data.length)
        (((s.store .rxBuf p 0 data).modPort p fun r => { r with rxLength := data.length, outArmed := false }).modChan p
          fun r => { r with
            uartTxLen := data.length, uartTxPos := 0,
            uartTxBusy := if 0 < data.length ∨ s.params.zlpOutRearm = true then true else r.uartTxBusy }) := rfl

/-- The storing part of DATA_OUT_COMPLETE (R163). -/
theorem storePacket_eq {s : State} {p : Port} {data : List Byte} (hlen : data.length ≤ s.params.maxPacket) :
    ((memWrite .rxBuf p 0 data s).andThen fun t =>
      receive p data.length (setOutArmed p false (setRxLength p data.length t))) = .run (packetState s p data) := by
  have hrange : 0 + data.length ≤ s.params.capacity .rxBuf := by simpa [Params.capacity] using hlen
  rw [memWrite_inRange hrange, Proc.andThen_of_run, receive_eq]
  simp only [setOutArmed_eq, setRxLength_eq, State.modPort, Two.modify_modify_same]
  rfl

theorem exec_dataOutComplete_armed {s : State} {ep : Byte} {p : Port} {data : List Byte} (hf : s.fatal = false)
    (hroute : routeOut s ep = some p) (harmed : (s.port p).outArmed = true)
    (hlen : data.length ≤ s.params.maxPacket) :
    exec (.dataOutComplete ep data) s = .next (packetState s p data) := by
  change execDataOutComplete ep data s = _
  simp only [execDataOutComplete, whenAlive_alive hf, hroute, harmed, if_true, if_pos hlen, storePacket_eq hlen,
    Proc.outcome_of_run]

/-- The state after a byte has left on line `c` (R165). -/
def lineSentState (s : State) (c : Port) : State :=
  setLinePos c ((s.chan c).uartTxPos + 1)
    (emit (.lineByte c (s.byteAt .rxBuf c (s.chan c).uartTxPos) (s.chan c).uartCfg) s)

/-- The state after the last byte of a packet has left on line `c` (R166). -/
def lineDoneState (s : State) (c : Port) : State :=
  emit (.armReceive (s.params.epOut.get c)) (setOutArmed c true (setLineBusy c false s))

theorem exec_uartTxByte_sending {s : State} {c : Port} (hf : s.fatal = false) (hbusy : (s.chan c).uartTxBusy = true)
    (hleft : (s.chan c).uartTxPos < (s.chan c).uartTxLen) (hrange : (s.chan c).uartTxPos < s.params.maxPacket) :
    exec (.uartTxByte c) s = .next (lineSentState s c) := by
  change execUartTxByte c s = _
  simp only [execUartTxByte, whenAlive_alive hf, hbusy, if_true, if_pos hleft,
    if_pos (show _ < s.params.capacity .rxBuf from hrange)]
  rfl

theorem exec_uartTxComplete_done {s : State} {c : Port} (hf : s.fatal = false) (hbusy : (s.chan c).uartTxBusy = true)
    (hdone : (s.chan c).uartTxPos = (s.chan c).uartTxLen) :
    exec (.uartTxComplete c) s = .next (lineDoneState s c) := by
  change execUartTxComplete c s = _
  simp only [execUartTxComplete, whenAlive_alive hf, hbusy, if_true, if_pos hdone]
  rfl

/-! ### The ring -/

theorem exec_uartRxByte_stopped {s : State} {c : Port} (hf : s.fatal = false) (hd : (s.chan c).dmaRunning = false)
    (b : Byte) : exec (.uartRxByte c b) s = .next s := by
  simp [exec, execUartRxByte, hf, hd]

theorem exec_uartRxByte_running {s : State} {c : Port} (hf : s.fatal = false) (hd : (s.chan c).dmaRunning = true)
    (hpos : 1 ≤ (s.chan c).rxRemaining) (hcap : (s.chan c).rxRemaining ≤ s.params.ringCap) (b : Byte) :
    exec (.uartRxByte c b) s = .next (receivedState s c b) := by
  change execUartRxByte c b s = _
  rw [execUartRxByte, whenAlive_alive hf, if_pos hd, dmaStore_eq ⟨hpos, hcap⟩]
  rfl

theorem receivedState_sameBytesOutside (s : State) (c : Port) (b : Byte) :
    SameBytesOutside s (receivedState s c b) .rxRing c (writeCursor s.params.ringCap (s.chan c).rxRemaining) 1 :=
  SameBytesOutside.store s .rxRing c _ [b]

/-! ### The drain -/

/-- The ring registers of channel `p` are in their ranges (R33, R34). -/
def RingInRange (s : State) (p : Port) : Prop :=
  1 ≤ (s.chan p).rxRemaining ∧ (s.chan p).rxRemaining ≤ s.params.ringCap ∧
    (s.chan p).rxReadCursor < s.params.ringCap

/-- The state after the drain of a Busy port with unread bytes: they are dropped (R197). -/
def droppedState (s : State) (p : Port) : State :=
  raise (.busy p) (setReadCursor p (writeCursor s.params.ringCap (s.chan p).rxRemaining) s)

@[simp] theorem drainedState_eq (s : State) (p : Port) :
    drainedState s p = emit (.usbTransmit (s.params.epIn.get p) (unreadBytes s p))
      (((s.store .txBuf p 0 (unreadBytes s p)).modPort p fun r =>
          { r with txLen := unreadCount s p, txState := .busy }).modChan p fun r =>
        { r with rxReadCursor := writeCursor s.params.ringCap (s.chan p).rxRemaining }) := rfl

/-- The three things a drain in range can do (R195). -/
inductive DrainEffect (p : Port) (s : State) : State → Prop
  | empty (hn : unreadCount s p = 0) : DrainEffect p s s
  | dropped (hn : unreadCount s p ≠ 0) (hbusy : (s.port p).txState = .busy) : DrainEffect p s (droppedState s p)
  | sent (hn : unreadCount s p ≠ 0) (hidle : (s.port p).txState = .idle) : DrainEffect p s (drainedState s p)

theorem drain_total {s : State} {p : Port} (hr : RingInRange s p) : ∃ t, drain p s = .run t ∧ DrainEffect p s t := by
  obtain ⟨hpos, hcap, hcur⟩ := hr
  by_cases hn : unreadCount s p = 0
  · exact ⟨s, drain_empty hpos hcap hcur hn, .empty hn⟩
  · cases hst : (s.port p).txState with
    | idle => exact ⟨_, drain_idle hpos hcap hcur hn hst, .sent hn hst⟩
    | busy =>
      refine ⟨_, ?_, .dropped hn hst⟩
      rw [drain_eq hpos hcap hcur, if_neg hn, hst]
      rfl

theorem drain_run {s t : State} {p : Port} (h : drain p s = .run t) : RingInRange s p ∧ DrainEffect p s t := by
  by_cases hr : RingInRange s p
  · obtain ⟨u, hu, heffect⟩ := drain_total hr
    obtain rfl : u = t := Proc.run.inj (hu.symm.trans h)
    exact ⟨hr, heffect⟩
  · rw [drain_outOfRange hr] at h
    cases h

/-- A drain returns or faults; it never ends its step. -/
theorem drain_not_ended {s t : State} {p : Port} : drain p s ≠ .ended t := by
  intro h
  by_cases hr : RingInRange s p
  · obtain ⟨u, hu, -⟩ := drain_total hr
    cases hu.symm.trans h
  · rw [drain_outOfRange hr] at h
    cases h

/-- What a drain transmits. -/
def sentBy (s : State) (p : Port) : List Action :=
  if unreadCount s p ≠ 0 ∧ (s.port p).txState = .idle then [.usbTransmit (s.params.epIn.get p) (unreadBytes s p)]
  else []

/-- What a drain raises. -/
def droppedBy (s : State) (p : Port) : List RaisedError :=
  if unreadCount s p ≠ 0 ∧ (s.port p).txState = .busy then [.busy p] else []

/-- What the drain of port `p` does to the pair of port and channel `p` (R195 to R199). -/
structure DrainedPair (p : Port) (s t : State) : Prop where
  chan : t.chan p = { s.chan p with rxReadCursor := writeCursor s.params.ringCap (s.chan p).rxRemaining }
  kept : (unreadCount s p = 0 ∨ (s.port p).txState = .busy) →
    t.port p = s.port p ∧ ∀ b i, t.byteAt b p i = s.byteAt b p i
  sent : unreadCount s p ≠ 0 → (s.port p).txState = .idle →
    t.port p = { s.port p with txLen := unreadCount s p, txState := .busy } ∧
    t.bytesAt .txBuf p 0 (unreadCount s p) = unreadBytes s p ∧
    ∀ b i, ¬(b = .txBuf ∧ i < unreadCount s p) → t.byteAt b p i = s.byteAt b p i

/-- Everything a drain in range changes, whichever of the three cases it is. -/
structure Drained (p : Port) (s t : State) : Prop extends DrainedPair p s t where
  other : SamePair s t p.other
  emits : Emits s t (sentBy s p)
  raises : Raises s t (droppedBy s p)
  flags : SameFlags s t
  armed : t.ctrlRxArmed = s.ctrlRxArmed
  env : SameEnv s t
  buffers : BuffersOk s → BuffersOk t

theorem TxState.ne_idle {x : TxState} (h : x = .busy) : x ≠ .idle := by simp [h]

theorem TxState.idle_of_ne_busy {x : TxState} (h : x ≠ .busy) : x = .idle := by
  cases x with
  | idle => rfl
  | busy => exact absurd rfl h

theorem drainedState_samePair_other (s : State) (p : Port) : SamePair s (drainedState s p) p.other := by
  refine ⟨by simp, by simp, fun b i => drainedState_sameBytesOutside s p b p.other i ?_⟩
  simp

theorem DrainEffect.drained {s t : State} {p : Port} (h : DrainEffect p s t) (hr : RingInRange s p) :
    Drained p s t := by
  obtain ⟨hpos, hcap, hcur⟩ := hr
  cases h with
  | empty hn =>
    have hcursor := bytesAvailable_law (writeCursor_lt hpos hcap) hcur
    rw [show bytesAvailable _ _ _ = 0 from hn, Nat.add_zero, Nat.mod_eq_of_lt hcur] at hcursor
    exact
      { chan := by rw [← hcursor]
        kept := fun _ => ⟨rfl, fun _ _ => rfl⟩
        sent := fun h => absurd hn h
        other := ⟨rfl, rfl, fun _ _ => rfl⟩
        emits := by simp [Emits, sentBy, hn]
        raises := by simp [Raises, droppedBy, hn]
        flags := ⟨rfl, rfl, rfl⟩
        armed := rfl
        env := ⟨rfl, rfl, rfl, rfl⟩
        buffers := id }
  | dropped hn hbusy =>
    exact
      { chan := by simp [droppedState]
        kept := fun _ => ⟨rfl, fun _ _ => rfl⟩
        sent := fun _ hidle => absurd hidle (TxState.ne_idle hbusy)
        other := ⟨by simp [droppedState], by simp [droppedState], fun _ _ => rfl⟩
        emits := by simp [Emits, sentBy, droppedState, hbusy]
        raises := by simp [Raises, droppedBy, droppedState, hn, hbusy]
        flags := ⟨rfl, rfl, rfl⟩
        armed := rfl
        env := ⟨rfl, rfl, rfl, rfl⟩
        buffers := fun h => h.of_same rfl rfl }
  | sent hn hidle =>
    exact
      { chan := by simp
        kept := fun h => absurd hidle (TxState.ne_idle (h.resolve_left hn))
        sent := fun _ _ => ⟨by simp, drainedState_bytesAt s p, fun b i hi =>
          drainedState_sameBytesOutside s p b p i fun h => hi ⟨h.1.1, by simpa using h.2.2⟩⟩
        other := drainedState_samePair_other s p
        emits := by simp [Emits, sentBy, hn, hidle]
        raises := by simp [Raises, droppedBy, hidle]
        flags := ⟨rfl, rfl, rfl⟩
        armed := rfl
        env := ⟨rfl, rfl, rfl, rfl⟩
        buffers := fun h => (h.store (show 0 + (unreadBytes s p).length ≤ s.params.capacity .txBuf by
          simpa [Params.capacity] using (unreadCount_lt hpos hcap hcur).le)).of_same rfl rfl }

/-- What a drain finds depends only on its channel, its ring and the capacity. -/
theorem unread_congr {s t : State} {p : Port} (hc : t.chan p = s.chan p) (hp : t.params = s.params)
    (hb : ∀ i, t.byteAt .rxRing p i = s.byteAt .rxRing p i) :
    unreadCount t p = unreadCount s p ∧ unreadBytes t p = unreadBytes s p := by
  have hcount : unreadCount t p = unreadCount s p := by simp only [unreadCount, hc, hp]
  exact ⟨hcount, by simp only [unreadBytes, hcount, hc, hp, hb]⟩

/-- A drain, then steps that leave its pair alone. -/
theorem DrainedPair.then_same {s u t : State} {p : Port} (h : DrainedPair p s u) (hs : SamePair u t p) :
    DrainedPair p s t := by
  obtain ⟨hport, hchan, hbytes⟩ := hs
  exact
    { chan := hchan.trans h.chan
      kept := fun hk => ⟨hport.trans (h.kept hk).1, fun b i => (hbytes b i).trans ((h.kept hk).2 b i)⟩
      sent := fun hn hidle =>
        have ⟨hp, htx, hother⟩ := h.sent hn hidle
        ⟨hport.trans hp, (State.bytesAt_congr fun k _ => hbytes .txBuf _).trans htx,
          fun b i hi => (hbytes b i).trans (hother b i hi)⟩ }

/-- Steps that leave the pair of `p` alone, then its drain. -/
theorem DrainedPair.of_same {s u t : State} {p : Port} (hs : SamePair s u p) (hparams : u.params = s.params)
    (h : DrainedPair p u t) : DrainedPair p s t := by
  obtain ⟨hport, hchan, hbytes⟩ := hs
  obtain ⟨hcount, hunread⟩ := unread_congr hchan hparams (hbytes .rxRing)
  obtain ⟨hc, hkept, hsent⟩ := h
  rw [hcount, hport] at hkept hsent
  rw [hunread] at hsent
  exact
    { chan := by rw [hc, hchan, hparams]
      kept := fun hk => ⟨(hkept hk).1, fun b i => ((hkept hk).2 b i).trans (hbytes b i)⟩
      sent := fun hn hidle =>
        have ⟨hp, htx, hother⟩ := hsent hn hidle
        ⟨hp, htx, fun b i hi => (hother b i hi).trans (hbytes b i)⟩ }

/-- Of the port's registers a drain writes at most the transfer's. -/
theorem DrainedPair.port_eq {s t : State} {p : Port} (h : DrainedPair p s t) :
    t.port p = { s.port p with txLen := (t.port p).txLen, txState := (t.port p).txState } := by
  by_cases hkeep : unreadCount s p = 0 ∨ (s.port p).txState = .busy
  · rw [(h.kept hkeep).1]
  · simp only [not_or] at hkeep
    rw [(h.sent hkeep.1 (TxState.idle_of_ne_busy hkeep.2)).1]

theorem DrainedPair.outArmed {s t : State} {p : Port} (h : DrainedPair p s t) :
    (t.port p).outArmed = (s.port p).outArmed := by rw [h.port_eq]

theorem DrainedPair.pendingCommand {s t : State} {p : Port} (h : DrainedPair p s t) :
    (t.port p).pendingCommand = (s.port p).pendingCommand := by rw [h.port_eq]

/-- Of the buffers a drain writes at most the Transmit Buffer, and that only of an Idle port. -/
theorem DrainedPair.byteAt_eq {s t : State} {p : Port} (h : DrainedPair p s t) {b : Buffer}
    (hb : b ≠ .txBuf ∨ (s.port p).txState = .busy) (i : Nat) : t.byteAt b p i = s.byteAt b p i := by
  by_cases hkeep : unreadCount s p = 0 ∨ (s.port p).txState = .busy
  · exact (h.kept hkeep).2 b i
  · simp only [not_or] at hkeep
    exact (h.sent hkeep.1 (TxState.idle_of_ne_busy hkeep.2)).2.2 b i fun hin => hb.resolve_right hkeep.2 hin.1

/-- What a drain sends and drops depends only on its pair and the parameters. -/
theorem sentBy_congr {s u : State} {p : Port} (hs : SamePair s u p) (hparams : u.params = s.params) :
    sentBy u p = sentBy s p ∧ droppedBy u p = droppedBy s p := by
  obtain ⟨hport, hchan, hbytes⟩ := hs
  obtain ⟨hcount, hunread⟩ := unread_congr hchan hparams (hbytes .rxRing)
  simp only [sentBy, droppedBy, hcount, hunread, hport, hparams, and_self]

/-- Everything SCHED_RUN of a configured block does: both drains, port 0's actions first (R194). -/
structure SchedDrained (s t : State) : Prop where
  pair : ∀ p, DrainedPair p s t
  emits : Emits s t (sentBy s .p0 ++ sentBy s .p1)
  raises : Raises s t (droppedBy s .p0 ++ droppedBy s .p1)
  tickFlag : t.tickFlag = false
  configured : t.configured = s.configured
  fatal : t.fatal = s.fatal
  armed : t.ctrlRxArmed = s.ctrlRxArmed
  env : SameEnv s t
  buffers : BuffersOk s → BuffersOk t

theorem RingInRange.congr {s u : State} {p : Port} (hchan : u.chan p = s.chan p) (hparams : u.params = s.params) :
    RingInRange u p ↔ RingInRange s p := by
  simp only [RingInRange, hchan, hparams]

/-- The two drains in turn: the first leaves the second port's pair as it was. -/
theorem schedDrained_of_drained {s u t : State} (h0 : Drained .p0 (setTick false s) u) (h1 : Drained .p1 u t) :
    SchedDrained s t := by
  have hsame0 : SamePair s u .p1 := h0.other
  obtain ⟨hparams0, hresets0, hinbox0, hdraws0⟩ := h0.env
  obtain ⟨hparams1, hresets1, hinbox1, hdraws1⟩ := h1.env
  obtain ⟨hsent, hdropped⟩ := sentBy_congr hsame0 hparams0
  have hemits0 : u.out = s.out ++ sentBy s .p0 := h0.emits
  have hraises0 : u.raised = s.raised ++ droppedBy s .p0 := h0.raises
  have hemits1 : t.out = u.out ++ sentBy u .p1 := h1.emits
  have hraises1 : t.raised = u.raised ++ droppedBy u .p1 := h1.raises
  obtain ⟨hconf0, hfatal0, htick0⟩ := h0.flags
  obtain ⟨hconf1, hfatal1, htick1⟩ := h1.flags
  exact
    { pair := fun p => by
        cases p with
        | p0 => exact DrainedPair.then_same (s := s) ⟨h0.chan, h0.kept, h0.sent⟩ h1.other
        | p1 => exact DrainedPair.of_same hsame0 hparams0 h1.toDrainedPair
      emits := by rw [Emits, hemits1, hemits0, hsent, List.append_assoc]
      raises := by rw [Raises, hraises1, hraises0, hdropped, List.append_assoc]
      tickFlag := htick1.trans htick0
      configured := hconf1.trans hconf0
      fatal := hfatal1.trans hfatal0
      armed := h1.armed.trans h0.armed
      env := ⟨hparams1.trans hparams0, hresets1.trans hresets0, hinbox1.trans hinbox0, hdraws1.trans hdraws0⟩
      buffers := fun h => h1.buffers (h0.buffers (h.of_same rfl rfl)) }

/-- SCHED_RUN of a configured block is the two drains after the flag is cleared (R194). -/
theorem exec_schedRun_configured {s : State} (hf : s.fatal = false) (ht : s.tickFlag = true)
    (hc : s.configured = true) :
    exec .schedRun s = ((drain .p0 (setTick false s)).andThen (drain .p1)).outcome := by
  change execSchedRun s = _
  simp only [execSchedRun, whenAlive_alive hf, ht, if_true, hc]

/-- With both rings in range, SCHED_RUN of a configured block completes. -/
theorem exec_schedRun_total {s : State} (hf : s.fatal = false) (ht : s.tickFlag = true) (hc : s.configured = true)
    (hr : ∀ p, RingInRange s p) : ∃ t, exec .schedRun s = .next t ∧ SchedDrained s t := by
  obtain ⟨u, hu, h0⟩ := drain_total (s := setTick false s) (hr .p0)
  have hdrained0 := h0.drained (hr .p0)
  have hr1 : RingInRange u .p1 := (RingInRange.congr hdrained0.other.2.1 hdrained0.env.1).mpr (hr .p1)
  obtain ⟨t, ht1, h1⟩ := drain_total hr1
  refine ⟨t, ?_, schedDrained_of_drained hdrained0 (h1.drained hr1)⟩
  rw [exec_schedRun_configured hf ht hc, hu, Proc.andThen_of_run, ht1, Proc.outcome_of_run]

/-- A SCHED_RUN of a configured block that completes found both rings in range. -/
theorem schedDrained_of_exec {s t : State} (hc : s.configured = true) (h : exec .schedRun s = .next t) :
    (∀ p, RingInRange s p) ∧ SchedDrained s t := by
  have hf : s.fatal = false := alive_of_exec h (by simp)
  have ht : s.tickFlag = true := by
    by_contra htick
    simp [exec, execSchedRun, hf, htick] at h
  rw [exec_schedRun_configured hf ht hc, Proc.outcome_eq_next] at h
  have hrun : ((drain .p0 (setTick false s)).andThen (drain .p1)) = .run t := by
    refine h.resolve_right fun hended => ?_
    rcases Proc.andThen_eq_ended.mp hended with h0 | ⟨u, -, h1⟩
    · exact drain_not_ended h0
    · exact drain_not_ended h1
  obtain ⟨u, hu, ht1⟩ := Proc.andThen_eq_run.mp hrun
  obtain ⟨hr0, h0⟩ := drain_run hu
  obtain ⟨hr1, h1⟩ := drain_run ht1
  have hdrained0 := h0.drained hr0
  refine ⟨fun p => ?_, schedDrained_of_drained hdrained0 (h1.drained hr1)⟩
  cases p with
  | p0 => exact hr0
  | p1 => exact (RingInRange.congr hdrained0.other.2.1 hdrained0.env.1).mp hr1

end Sys2Proof.Machine

namespace Sys2Proof.Proofs

open Sys2Proof.Machine

/-- Settles O7: the fetch takes the head of the queue, and a delivered word is that head. -/
theorem stepRunsDecodedInstruction : Obligations.StepRunsDecodedInstruction :=
  ⟨fun _ _ _ _ => step_cons, fun _ _ _ _ => step_undecodable, fun _ _ _ _ => step_withFetchWord⟩

/-- Settles O8: with an empty queue the fetch finds nothing. -/
theorem idleWithoutEvents : Obligations.IdleWithoutEvents := fun _ => step_idle

/-- Settles O30: each framing is chosen by comparison with its code; the fallback differs from all of them. -/
theorem framingOfLineCoding : Obligations.FramingOfLineCoding := by
  intro lc
  obtain ⟨hodd, heven⟩ := parityOfCode_iff lc.parityCode
  obtain ⟨hseven, hnine⟩ := wordLenOfBits_iff lc.dataBits
  exact ⟨rfl, stopOfCode_iff lc.stopCode, hodd, heven, hseven, hnine⟩

/-- Settles O39: the endpoint's owner is found by routing, and nothing happens where there is none. -/
theorem dataInCompleteIdlesItsPort : Obligations.DataInCompleteIdlesItsPort := by
  intro s hf hv
  refine ⟨fun p hc => ?owned, fun ep hno => ?foreign⟩
  case owned =>
    have hroute : routeIn s (s.params.epIn.get p) = some p := (routeIn_eq_some hv).mpr ⟨hc, rfl⟩
    simp only [exec, execDataInComplete, whenAlive_alive hf, hroute]
    rfl
  case foreign =>
    simp only [exec, execDataInComplete, whenAlive_alive hf, routeIn_eq_none.mpr hno]
    rfl

/-- Settles O41: the packet's endpoint routes to its port, and the step leaves `packetState`. -/
theorem outPacketIsStoredAndStarted : Obligations.OutPacketIsStoredAndStarted := by
  intro s p data hf hv hc harmed hlen
  refine ⟨_, exec_dataOutComplete_armed hf ((routeOut_eq_some hv).mpr ⟨hc, rfl⟩) harmed hlen,
    s.store_bytesAt_same .rxBuf p 0 data, SameBytesOutside.store s .rxBuf p 0 data, rfl, ?_, rfl, ⟨rfl, rfl, rfl⟩,
    ⟨rfl, rfl, rfl, rfl⟩, (List.append_nil _).symm, rfl⟩
  simp only [packetState, List.length_pos_iff]

/-- Settles O43: the position is below the packet's length, and so inside the buffer. -/
theorem lineByteIsSent : Obligations.LineByteIsSent := by
  intro s c hf hbusy hleft hlen
  rw [exec_uartTxByte_sending hf hbusy hleft (by omega)]
  cases c <;> rfl

/-- Settles O44: with every byte sent the line is idle again and the endpoint armed. -/
theorem lineCompletionRearms : Obligations.LineCompletionRearms := fun _ _ hf hbusy hdone =>
  exec_uartTxComplete_done hf hbusy hdone

/-- Settles O49: the store is `receivedState`, whose count is `nextRemaining`. -/
theorem receivedByteIsStored : Obligations.ReceivedByteIsStored := by
  intro s c b hf
  refine ⟨fun hd => exec_uartRxByte_stopped hf hd b, fun hd hpos hcap => ?_⟩
  obtain ⟨hpos', hcap'⟩ := nextRemaining_range hpos hcap
  refine ⟨_, exec_uartRxByte_running hf hd hpos hcap b, ?byte, receivedState_sameBytesOutside s c b, ?cursor, ?_, ?_,
    ?_, ?other, rfl, rfl, ⟨rfl, rfl, rfl⟩, ⟨rfl, rfl, rfl, rfl⟩, (List.append_nil _).symm, (List.append_nil _).symm⟩
  case byte => exact (receivedState_byteAt s c b _).trans (if_pos rfl)
  case cursor =>
    rw [receivedState_chan]
    exact writeCursor_nextRemaining hpos hcap
  case other => simp [receivedState]
  all_goals rw [receivedState_chan]
  · exact hpos'
  · exact hcap'

/-- Settles O50: the timer's callback sets the flag. -/
theorem tickSetsTheFlag : Obligations.TickSetsTheFlag := by
  intro s hf
  simp only [exec, execTimerTick, whenAlive_alive hf]
  rfl

/-- Settles O51: while unconfigured no drain runs. -/
theorem schedRunWithoutPorts : Obligations.SchedRunWithoutPorts := by
  intro s hf ht hc
  simp [exec, execSchedRun, hf, ht, hc, setTick]

/-- Settles O54: the first drain leaves the second port's pair as it was, so each drain finds its own port's unread
bytes. -/
theorem schedRunDrainsBothPorts : Obligations.SchedRunDrainsBothPorts := by
  intro s hinv hf ht hc
  obtain ⟨t, hexec, h⟩ := exec_schedRun_total hf ht hc (hinv.live hf).ringRegisters
  exact ⟨t, hexec, h.tickFlag, h.configured.trans hc, h.fatal.trans hf, h.armed, h.env, fun p => (h.pair p).chan,
    fun p => (h.pair p).kept, fun p => (h.pair p).sent, h.emits, h.raises⟩

/-- Settles O57: one branch for each kind. -/
theorem lineErrorsAreFlagged : Obligations.LineErrorsAreFlagged := by
  intro s c hf
  constructor <;>
  · simp only [exec, execUartError, whenAlive_alive hf]
    rfl

end Sys2Proof.Proofs
end

section
/-! What any one event can do: an inductive predicate with one constructor for each state a completed step can leave,
and the proof that every completed step leaves one of them. The statements about every event are case analyses of
it. -/

namespace Sys2Proof.Machine

/-! ### The control handler -/

/-- The states in which `Control(p, opcode)` returns (R131). -/
inductive ControlEffect (p : Port) (opcode : Byte) (u : State) : State → Prop
  | kept : ControlEffect p opcode u u
  | readBack (hop : opcode = 0x21) (hcap : 7 ≤ u.params.ctrlBufCap) : ControlEffect p opcode u (readBackState p u)
  | set (hop : opcode = 0x20) (hd : u.draws.deinitOk.get p = true) (hi : u.draws.initOk.get p = true) :
    ControlEffect p opcode u (reconfiguredState p (parsedState p u))

/-- The one way in which `Control(p, opcode)` ends its step. -/
structure ControlHalts (p : Port) (opcode : Byte) (u v : State) : Prop where
  opcode_eq : opcode = 0x20
  fails : u.draws.deinitOk.get p = false ∨ u.draws.initOk.get p = false
  state : v = haltedReconfigurationState p (parsedState p u)

/-- A control buffer too small for a line coding faults, so a handler that completes has room for it. -/
theorem setLineCodingOp_room {p : Port} {u : State} (h : ∀ f, setLineCodingOp p u ≠ .fault f) :
    7 ≤ u.params.ctrlBufCap := by
  by_contra hcap
  exact h _ (memRead_outOfRange (by simpa [Params.capacity] using hcap))

theorem setLineCodingOp_run {p : Port} {u v : State} (h : setLineCodingOp p u = .run v) :
    ControlEffect p 0x20 u v := by
  have hcap := setLineCodingOp_room (p := p) (u := u) fun f hf => by simp [hf] at h
  by_cases hfail : u.draws.deinitOk.get p = false ∨ u.draws.initOk.get p = false
  · rw [setLineCodingOp_fails hcap hfail] at h
    cases h
  · simp only [not_or, Bool.not_eq_false] at hfail
    rw [setLineCodingOp_ok hcap hfail.1 hfail.2] at h
    cases h
    exact .set rfl hfail.1 hfail.2

theorem setLineCodingOp_ended {p : Port} {u v : State} (h : setLineCodingOp p u = .ended v) :
    ControlHalts p 0x20 u v := by
  have hcap := setLineCodingOp_room (p := p) (u := u) fun f hf => by simp [hf] at h
  by_cases hfail : u.draws.deinitOk.get p = false ∨ u.draws.initOk.get p = false
  · rw [setLineCodingOp_fails hcap hfail] at h
    cases h
    exact ⟨rfl, hfail, rfl⟩
  · simp only [not_or, Bool.not_eq_false] at hfail
    rw [setLineCodingOp_ok hcap hfail.1 hfail.2] at h
    cases h

theorem control_run {p : Port} {opcode : Byte} {u v : State} (h : control p opcode u = .run v) :
    ControlEffect p opcode u v := by
  by_cases hset : opcode = 0x20
  · subst hset
    exact setLineCodingOp_run h
  · by_cases hget : opcode = 0x21
    · subst hget
      obtain ⟨hcap, rfl⟩ := memWrite_run.mp h
      exact .readBack rfl (by simpa [Params.capacity] using hcap)
    · rw [control_other p hset hget] at h
      cases h
      exact .kept

theorem control_ended {p : Port} {opcode : Byte} {u v : State} (h : control p opcode u = .ended v) :
    ControlHalts p opcode u v := by
  by_cases hset : opcode = 0x20
  · subst hset
    exact setLineCodingOp_ended h
  · by_cases hget : opcode = 0x21
    · subst hget
      change memWrite _ _ _ _ _ = _ at h
      unfold memWrite at h
      split at h <;> cases h
    · rw [control_other p hset hget] at h
      cases h

theorem RequestHandler.run {opcode : Byte} {p : Port} {handler : State → Proc} (hh : RequestHandler opcode p handler)
    {u v : State} (h : handler u = .run v) : ControlEffect p opcode u v := by
  cases hh with
  | control => exact control_run h
  | noEffect => cases h; exact .kept

theorem RequestHandler.ended {opcode : Byte} {p : Port} {handler : State → Proc} (hh : RequestHandler opcode p handler)
    {u v : State} (h : handler u = .ended v) : ControlHalts p opcode u v := by
  cases hh with
  | control => exact control_ended h
  | noEffect => cases h

/-! ### The reply of a request -/

/-- What a request answers: nothing, or one `CtrlSend` (R124, R129). -/
def replyActions : Option (List Byte) → List Action
  | none => []
  | some bytes => [.ctrlSend bytes]

/-- A state after the reply of a request. -/
def sendReply (reply : Option (List Byte)) (s : State) : State := { s with out := s.out ++ replyActions reply }

section SendReply

variable (reply : Option (List Byte)) (s : State)

@[simp] theorem sendReply_configured : (sendReply reply s).configured = s.configured := rfl
@[simp] theorem sendReply_fatal : (sendReply reply s).fatal = s.fatal := rfl
@[simp] theorem sendReply_tickFlag : (sendReply reply s).tickFlag = s.tickFlag := rfl
@[simp] theorem sendReply_ctrlRxArmed : (sendReply reply s).ctrlRxArmed = s.ctrlRxArmed := rfl
@[simp] theorem sendReply_port (p : Port) : (sendReply reply s).port p = s.port p := rfl
@[simp] theorem sendReply_chan (c : Port) : (sendReply reply s).chan c = s.chan c := rfl
@[simp] theorem sendReply_bufs : (sendReply reply s).bufs = s.bufs := rfl
@[simp] theorem sendReply_byteAt (b : Buffer) (p : Port) (i : Nat) :
    (sendReply reply s).byteAt b p i = s.byteAt b p i := rfl
@[simp] theorem sendReply_params : (sendReply reply s).params = s.params := rfl
@[simp] theorem sendReply_inbox : (sendReply reply s).inbox = s.inbox := rfl
@[simp] theorem sendReply_out : (sendReply reply s).out = s.out ++ replyActions reply := rfl
@[simp] theorem sendReply_raised : (sendReply reply s).raised = s.raised := rfl

end SendReply

/-! ### The left states, as register writes -/

@[simp] theorem armedState_eq (s : State) (p : Port) (opcode : Byte) (wLength : Half) :
    armedState s p opcode wLength = emit (.ctrlReceive p wLength.toNat)
      ((setCtrlRxArmed (some { port := p, length := wLength.toNat }) s).modPort p fun r =>
        { r with pendingCommand := some { opcode := opcode, length := wLength } }) := rfl

@[simp] theorem readBackState_eq (p : Port) (u : State) :
    readBackState p u = u.store .ctrlBuf p 0 (lineCodingBytes (u.port p).lineCoding) := rfl

@[simp] theorem configuredState_eq (s : State) :
    configuredState s = emit (.configResult true) (setConfigured true
      (armOut .p1 (armOut .p0 (initedState .p1 (initedState .p0 (createdState s)))))) := rfl

@[simp] theorem receivedState_eq (s : State) (c : Port) (b : Byte) :
    receivedState s c b =
      (s.store .rxRing c (writeCursor s.params.ringCap (s.chan c).rxRemaining) [b]).modChan c fun r =>
        { r with rxRemaining := nextRemaining s.params.ringCap (s.chan c).rxRemaining } := rfl

@[simp] theorem lineSentState_eq (s : State) (c : Port) :
    lineSentState s c =
      (emit (.lineByte c (s.byteAt .rxBuf c (s.chan c).uartTxPos) (s.chan c).uartCfg) s).modChan c fun r =>
        { r with uartTxPos := (s.chan c).uartTxPos + 1 } := rfl

@[simp] theorem lineDoneState_eq (s : State) (c : Port) :
    lineDoneState s c = emit (.armReceive (s.params.epOut.get c))
      ((s.modChan c fun r => { r with uartTxBusy := false }).modPort c fun r => { r with outArmed := true }) := rfl

section HaltedReconfiguration

variable (c : Port) (s : State)

@[simp] theorem haltedReconfigurationState_fatal : (haltedReconfigurationState c s).fatal = true := rfl
@[simp] theorem haltedReconfigurationState_configured :
    (haltedReconfigurationState c s).configured = s.configured := rfl
@[simp] theorem haltedReconfigurationState_tickFlag : (haltedReconfigurationState c s).tickFlag = s.tickFlag := rfl
@[simp] theorem haltedReconfigurationState_ctrlRxArmed :
    (haltedReconfigurationState c s).ctrlRxArmed = s.ctrlRxArmed := rfl
@[simp] theorem haltedReconfigurationState_port (p : Port) : (haltedReconfigurationState c s).port p = s.port p := rfl
@[simp] theorem haltedReconfigurationState_bufs : (haltedReconfigurationState c s).bufs = s.bufs := rfl
@[simp] theorem haltedReconfigurationState_byteAt (b : Buffer) (p : Port) (i : Nat) :
    (haltedReconfigurationState c s).byteAt b p i = s.byteAt b p i := rfl
@[simp] theorem haltedReconfigurationState_params : (haltedReconfigurationState c s).params = s.params := rfl
@[simp] theorem haltedReconfigurationState_inbox : (haltedReconfigurationState c s).inbox = s.inbox := rfl
@[simp] theorem haltedReconfigurationState_out :
    (haltedReconfigurationState c s).out =
      s.out ++ failedReconfigurationActions c s ++ [.fatal .peripheralInitFailure] := rfl
@[simp] theorem haltedReconfigurationState_raised :
    (haltedReconfigurationState c s).raised = s.raised ++ [.peripheralInitFailure c] := rfl
@[simp] theorem haltedReconfigurationState_chan (q : Port) :
    (haltedReconfigurationState c s).chan q =
      (s.modChan c fun r => { r with
        dmaRunning := false,
        uartCfg := if s.draws.deinitOk.get c then cfgOf (s.port c).lineCoding else r.uartCfg }).chan q := rfl

end HaltedReconfiguration

theorem mem_failedReconfigurationActions {c : Port} {s : State} {a : Action}
    (h : a ∈ failedReconfigurationActions c s) : a = .uartDeinit c ∨ ∃ cfg, a = .uartInit c cfg := by
  unfold failedReconfigurationActions at h
  rcases List.mem_cons.mp h with rfl | h
  · exact .inl rfl
  · split at h
    · exact .inr ⟨_, List.mem_singleton.mp h⟩
    · cases h

@[simp] theorem resetAll_configured (s : State) : (resetAll s).configured = false := rfl
@[simp] theorem resetAll_fatal (s : State) : (resetAll s).fatal = false := rfl
@[simp] theorem resetAll_tickFlag (s : State) : (resetAll s).tickFlag = false := rfl
@[simp] theorem resetAll_ctrlRxArmed (s : State) : (resetAll s).ctrlRxArmed = none := rfl
@[simp] theorem resetAll_params (s : State) : (resetAll s).params = s.params := rfl
@[simp] theorem resetAll_inbox (s : State) : (resetAll s).inbox = s.inbox := rfl
@[simp] theorem resetAll_out (s : State) : (resetAll s).out = s.out := rfl
@[simp] theorem resetAll_raised (s : State) : (resetAll s).raised = s.raised := rfl

/-! ### The states a completed step can leave -/

/-- A packet that runs `SetLineCoding` in its SETUP: on P1 or P2 (R126, R124). -/
def SetsLineCoding (pkt : SetupPacket) : Prop :=
  pkt.reqType = .classType ∧ pkt.bRequest = 0x20 ∧ (pkt.wLength = 0 ∨ pkt.dir = .deviceToHost)

/-- The states a completed step of an event can leave, from state `s`. -/
inductive Effect (s : State) : Instr → State → Prop
  | reset : Effect s .reset (resetAll s)
  | configureIgnored (hc : s.configured = true) : Effect s .configure s
  | configureNoMemory (hc : s.configured = false) (ha : s.draws.allocOk = false) :
    Effect s .configure (emit (.configResult false) (raise .allocationFailure s))
  | configureHaltedFirst (hc : s.configured = false) (ha : s.draws.allocOk = true)
      (hi : s.draws.initOk.get .p0 = false) :
    Effect s .configure (haltedState .p0 (framedState .p0 (createdState s)))
  | configureHaltedSecond (hc : s.configured = false) (ha : s.draws.allocOk = true)
      (hi : s.draws.initOk.get .p1 = false) :
    Effect s .configure (haltedState .p1 (framedState .p1 (initedState .p0 (createdState s))))
  | configured (hc : s.configured = false) (ha : s.draws.allocOk = true) : Effect s .configure (configuredState s)
  | deconfigureIgnored (hc : s.configured = false) : Effect s .deconfigure s
  | deconfigureHaltedFirst (hc : s.configured = true) (hd : s.draws.deinitOk.get .p0 = false) :
    Effect s .deconfigure (haltedState .p0 (stoppedState .p0 (closedState s)))
  | deconfigureHaltedSecond (hc : s.configured = true) (hd : s.draws.deinitOk.get .p1 = false) :
    Effect s .deconfigure (haltedState .p1 (stoppedState .p1 (stoppedState .p0 (closedState s))))
  | deconfigured (hc : s.configured = true) :
    Effect s .deconfigure (setConfigured false (teardown (stoppedState .p1 (stoppedState .p0 (closedState s)))))
  | requestDropped {i : Instr} {pkt : SetupPacket} (hpkt : setupPacket i = some pkt)
      (hroute : routeIface s (ifaceOf pkt.wIndex) = none) :
    Effect s i (emit (.diag .unroutableRequest (ifaceOf pkt.wIndex))
      (raise (.unroutableRequest (ifaceOf pkt.wIndex)) (setCtrlRxArmed none s)))
  | requestKept {i : Instr} {pkt : SetupPacket} {p : Port} (reply : Option (List Byte))
      (hpkt : setupPacket i = some pkt) (hroute : routeIface s (ifaceOf pkt.wIndex) = some p)
      (hpath : i.wf = true → ¬OnPathOut pkt) :
    Effect s i (sendReply reply (setCtrlRxArmed none s))
  | requestReadBack {i : Instr} {pkt : SetupPacket} {p : Port} (reply : Option (List Byte))
      (hpkt : setupPacket i = some pkt) (hroute : routeIface s (ifaceOf pkt.wIndex) = some p)
      (hpath : i.wf = true → ¬OnPathOut pkt) (hcap : 7 ≤ s.params.ctrlBufCap) :
    Effect s i (sendReply reply (readBackState p (setCtrlRxArmed none s)))
  | requestSet {i : Instr} {pkt : SetupPacket} {p : Port} (reply : Option (List Byte))
      (hpkt : setupPacket i = some pkt) (hroute : routeIface s (ifaceOf pkt.wIndex) = some p)
      (hpath : i.wf = true → ¬OnPathOut pkt) (hset : SetsLineCoding pkt) :
    Effect s i (sendReply reply (reconfiguredState p (parsedState p (setCtrlRxArmed none s))))
  | requestHalted {i : Instr} {pkt : SetupPacket} {p : Port} (hpkt : setupPacket i = some pkt)
      (hroute : routeIface s (ifaceOf pkt.wIndex) = some p) (hpath : i.wf = true → ¬OnPathOut pkt)
      (hset : SetsLineCoding pkt) (hfail : s.draws.deinitOk.get p = false ∨ s.draws.initOk.get p = false) :
    Effect s i (haltedReconfigurationState p (parsedState p (setCtrlRxArmed none s)))
  | requestArmed {i : Instr} {pkt : SetupPacket} {p : Port} (hpkt : setupPacket i = some pkt)
      (hroute : routeIface s (ifaceOf pkt.wIndex) = some p) (hclass : pkt.reqType = .classType)
      (hdir : pkt.dir = .hostToDevice) (h0 : i.wf = true → pkt.wLength ≠ 0)
      (hlen : pkt.wLength.toNat ≤ s.params.ctrlBufCap) :
    Effect s i (armedState s p pkt.bRequest pkt.wLength)
  | dataStageUnclaimed {data : List Byte} {p : Port} (harmed : s.ctrlRxArmed = some ⟨p, data.length⟩)
      (hlen : data.length ≤ s.params.ctrlBufCap) (hpend : (s.port p).pendingCommand = none) :
    Effect s (.ctrlDataComplete data) (dataStageState s p data)
  | dataStageKept {data : List Byte} {p : Port} {c : PendingCommand}
      (harmed : s.ctrlRxArmed = some ⟨p, data.length⟩) (hlen : data.length ≤ s.params.ctrlBufCap)
      (hpend : (s.port p).pendingCommand = some c) :
    Effect s (.ctrlDataComplete data) (setPending p none (dataStageState s p data))
  | dataStageReadBack {data : List Byte} {p : Port} {c : PendingCommand}
      (harmed : s.ctrlRxArmed = some ⟨p, data.length⟩) (hlen : data.length ≤ s.params.ctrlBufCap)
      (hpend : (s.port p).pendingCommand = some c) (hcap : 7 ≤ s.params.ctrlBufCap) :
    Effect s (.ctrlDataComplete data) (setPending p none (readBackState p (dataStageState s p data)))
  | dataStageSet {data : List Byte} {p : Port} {c : PendingCommand}
      (harmed : s.ctrlRxArmed = some ⟨p, data.length⟩) (hlen : data.length ≤ s.params.ctrlBufCap)
      (hpend : (s.port p).pendingCommand = some c) (hop : c.opcode = 0x20) :
    Effect s (.ctrlDataComplete data)
      (setPending p none (reconfiguredState p (parsedState p (dataStageState s p data))))
  | dataStageHalted {data : List Byte} {p : Port} {c : PendingCommand}
      (harmed : s.ctrlRxArmed = some ⟨p, data.length⟩) (hlen : data.length ≤ s.params.ctrlBufCap)
      (hpend : (s.port p).pendingCommand = some c) (hop : c.opcode = 0x20)
      (hfail : s.draws.deinitOk.get p = false ∨ s.draws.initOk.get p = false) :
    Effect s (.ctrlDataComplete data) (haltedReconfigurationState p (parsedState p (dataStageState s p data)))
  | inIgnored {ep : Byte} (hroute : routeIn s ep = none) : Effect s (.dataInComplete ep) s
  | inCompleted {ep : Byte} {p : Port} (hroute : routeIn s ep = some p) :
    Effect s (.dataInComplete ep) (setTxIdle p s)
  | outStored {ep : Byte} {data : List Byte} {p : Port} (hroute : routeOut s ep = some p)
      (harmed : (s.port p).outArmed = true) (hlen : data.length ≤ s.params.maxPacket) :
    Effect s (.dataOutComplete ep data) (packetState s p data)
  | rxDiscarded {c : Port} {b : Byte} (hd : (s.chan c).dmaRunning = false) : Effect s (.uartRxByte c b) s
  | rxStored {c : Port} {b : Byte} (hd : (s.chan c).dmaRunning = true) (hpos : 1 ≤ (s.chan c).rxRemaining)
      (hcap : (s.chan c).rxRemaining ≤ s.params.ringCap) : Effect s (.uartRxByte c b) (receivedState s c b)
  | lineSent {c : Port} (hbusy : (s.chan c).uartTxBusy = true) (hleft : (s.chan c).uartTxPos < (s.chan c).uartTxLen) :
    Effect s (.uartTxByte c) (lineSentState s c)
  | lineDone {c : Port} (hbusy : (s.chan c).uartTxBusy = true) (hdone : (s.chan c).uartTxPos = (s.chan c).uartTxLen) :
    Effect s (.uartTxComplete c) (lineDoneState s c)
  | overrun {c : Port} : Effect s (.uartError c 0x01)
      (emit (.diag .uartOverrun (infoOfChannel c)) (raise (.uartOverrun c) (flagOverrun c s)))
  | framing {c : Port} : Effect s (.uartError c 0x02)
      (emit (.diag .uartFraming (infoOfChannel c)) (raise (.uartFraming c) (flagFraming c s)))
  | tick : Effect s .timerTick (setTick true s)
  | schedIdle (hc : s.configured = false) : Effect s .schedRun (setTick false s)
  | schedDrained {t : State} (hc : s.configured = true) (hring : ∀ p, RingInRange s p) (h : SchedDrained s t) :
    Effect s .schedRun t

/-! ### Every completed step leaves one of them -/

/-- P2: the handler returned and its reply went out, or the handler ended the step. -/
theorem classIn_next {p : Port} {handler : State → Proc} {length : Nat} {u t : State}
    (h : (classIn p handler length u).outcome = .next t) :
    (∃ v bytes, handler u = .run v ∧ t = emit (.ctrlSend bytes) v) ∨ handler u = .ended t := by
  unfold classIn memRead at h
  split at h
  case isFalse => cases h
  case isTrue =>
    cases hh : handler u with
    | run v =>
      rw [hh, Proc.andThen_of_run] at h
      split at h
      · cases h
        exact .inl ⟨v, _, rfl, rfl⟩
      · cases h
    | ended v =>
      rw [hh] at h
      cases h
      exact .inr rfl
    | fault f | refused r =>
      rw [hh] at h
      cases h

/-- A handler on P1 or P2, with the reply of its path. -/
theorem effect_of_control {s v : State} {i : Instr} {pkt : SetupPacket} {p : Port} (reply : Option (List Byte))
    (hpkt : setupPacket i = some pkt) (hroute : routeIface s (ifaceOf pkt.wIndex) = some p)
    (hclass : pkt.reqType = .classType) (hpath : pkt.wLength = 0 ∨ pkt.dir = .deviceToHost)
    (hv : ControlEffect p pkt.bRequest (setCtrlRxArmed none s) v) : Effect s i (sendReply reply v) := by
  have hout : i.wf = true → ¬OnPathOut pkt := by
    rintro - ⟨-, hdir, h0⟩
    rcases hpath with h | h
    · exact h0 h
    · simp [hdir] at h
  cases hv with
  | kept => exact .requestKept reply hpkt hroute hout
  | readBack _ hcap => exact .requestReadBack reply hpkt hroute hout hcap
  | set hop _ _ => exact .requestSet reply hpkt hroute hout ⟨hclass, hop, hpath⟩

theorem effect_of_controlHalts {s t : State} {i : Instr} {pkt : SetupPacket} {p : Port}
    (hpkt : setupPacket i = some pkt) (hroute : routeIface s (ifaceOf pkt.wIndex) = some p)
    (hclass : pkt.reqType = .classType) (hpath : pkt.wLength = 0 ∨ pkt.dir = .deviceToHost)
    (h : ControlHalts p pkt.bRequest (setCtrlRxArmed none s) t) : Effect s i t := by
  have hout : i.wf = true → ¬OnPathOut pkt := by
    rintro - ⟨-, hdir, h0⟩
    rcases hpath with h | h
    · exact h0 h
    · simp [hdir] at h
  obtain ⟨hop, hfail, rfl⟩ := h
  exact .requestHalted hpkt hroute hout ⟨hclass, hop, hpath⟩ hfail

theorem sendReply_none (s : State) : sendReply none s = s := by simp [sendReply, replyActions]

theorem effect_of_requestBody {s t : State} {i : Instr} {pkt : SetupPacket} {p : Port} {body : State → Proc}
    (hpkt : setupPacket i = some pkt) (hroute : routeIface s (ifaceOf pkt.wIndex) = some p)
    (hb : RequestBody i pkt p body) (h : (body (setCtrlRxArmed none s)).outcome = .next t) : Effect s i t := by
  cases hb with
  | noData hclass h0 hh =>
    rcases Proc.outcome_eq_next.mp h with hrun | hended
    · rw [← sendReply_none t]
      exact effect_of_control none hpkt hroute hclass (.inl h0) (hh.run hrun)
    · exact effect_of_controlHalts hpkt hroute hclass (.inl h0) (hh.ended hended)
  | dataIn hclass hdir hh =>
    rcases classIn_next h with ⟨v, bytes, hrun, rfl⟩ | hended
    · exact effect_of_control (some bytes) hpkt hroute hclass (.inr hdir) (hh.run hrun)
    · exact effect_of_controlHalts hpkt hroute hclass (.inr hdir) (hh.ended hended)
  | dataOut hclass hdir h0 =>
    rw [classOut_eq] at h
    split at h
    · cases h
      exact .requestArmed hpkt hroute hclass hdir h0 (by assumption)
    · cases h
  | getInterface hstd =>
    cases h
    exact .requestKept (some [0x00]) hpkt hroute fun _ hout => by simp [hout.1] at hstd
  | other hclass =>
    cases h
    rw [← sendReply_none (setCtrlRxArmed none s)]
    exact .requestKept none hpkt hroute fun hwf hout => hclass hwf hout.1

theorem effect_of_request {s t : State} {i : Instr} {pkt : SetupPacket} (hpkt : setupPacket i = some pkt)
    (h : exec i s = .next t) : Effect s i t := by
  obtain ⟨body, hexec, hbody⟩ := isRequest_of_setupPacket hpkt
  rw [hexec] at h
  have hstep := whenAlive_next h
  dsimp only at hstep
  split at hstep
  · next p hroute => exact effect_of_requestBody hpkt hroute (hbody p) hstep
  · next hroute =>
    cases hstep
    exact .requestDropped hpkt hroute

/-- CONFIGURE completes in every state that is alive. -/
theorem configure_total {s : State} (hf : s.fatal = false) :
    ∃ t, exec .configure s = .next t ∧ Effect s .configure t := by
  cases hc : s.configured with
  | true => exact ⟨_, exec_configure_configured hf hc, .configureIgnored hc⟩
  | false =>
    cases ha : s.draws.allocOk with
    | false => exact ⟨_, exec_configure_noMemory hf hc ha, .configureNoMemory hc ha⟩
    | true =>
      cases h0 : s.draws.initOk.get .p0 with
      | false => exact ⟨_, exec_configure_haltsFirst hf hc ha h0, .configureHaltedFirst hc ha h0⟩
      | true =>
        cases h1 : s.draws.initOk.get .p1 with
        | false => exact ⟨_, exec_configure_haltsSecond hf hc ha h0 h1, .configureHaltedSecond hc ha h1⟩
        | true => exact ⟨_, exec_configure_ok hf hc ha h0 h1, .configured hc ha⟩

/-- DECONFIGURE completes in every state that is alive. -/
theorem deconfigure_total {s : State} (hf : s.fatal = false) :
    ∃ t, exec .deconfigure s = .next t ∧ Effect s .deconfigure t := by
  cases hc : s.configured with
  | false => exact ⟨_, exec_deconfigure_unconfigured hf hc, .deconfigureIgnored hc⟩
  | true =>
    cases h0 : s.draws.deinitOk.get .p0 with
    | false => exact ⟨_, exec_deconfigure_haltsFirst hf hc h0, .deconfigureHaltedFirst hc h0⟩
    | true =>
      cases h1 : s.draws.deinitOk.get .p1 with
      | false => exact ⟨_, exec_deconfigure_haltsSecond hf hc h0 h1, .deconfigureHaltedSecond hc h1⟩
      | true => exact ⟨_, exec_deconfigure_ok hf hc h0 h1, .deconfigured hc⟩

theorem effect_of_total {s t : State} {i : Instr} (h : exec i s = .next t)
    (htotal : ∃ u, exec i s = .next u ∧ Effect s i u) : Effect s i t := by
  obtain ⟨u, hu, heffect⟩ := htotal
  obtain rfl := Host.Outcome.next.inj (hu.symm.trans h)
  exact heffect

/-- The pending command of a data stage. -/
theorem effect_of_processPending {s t : State} {data : List Byte} {p : Port}
    (harmed : s.ctrlRxArmed = some ⟨p, data.length⟩) (hlen : data.length ≤ s.params.ctrlBufCap)
    (h : (processPending p (dataStageState s p data)).outcome = .next t) : Effect s (.ctrlDataComplete data) t := by
  cases hpend : (s.port p).pendingCommand with
  | none =>
    rw [processPending, show ((dataStageState s p data).port p).pendingCommand = none from hpend] at h
    cases h
    exact .dataStageUnclaimed harmed hlen hpend
  | some c =>
    rw [processPending_some (show ((dataStageState s p data).port p).pendingCommand = some c from hpend)] at h
    cases hcontrol : control p c.opcode (dataStageState s p data) with
    | run v =>
      rw [hcontrol] at h
      cases h
      cases control_run hcontrol with
      | kept => exact .dataStageKept harmed hlen hpend
      | readBack _ hcap => exact .dataStageReadBack harmed hlen hpend hcap
      | set hop _ _ => exact .dataStageSet harmed hlen hpend hop
    | ended v =>
      rw [hcontrol] at h
      cases h
      obtain ⟨hop, hfail, rfl⟩ := control_ended hcontrol
      exact .dataStageHalted harmed hlen hpend hop hfail
    | fault f | refused r =>
      rw [hcontrol] at h
      cases h

theorem effect_of_ctrlDataComplete {s t : State} {data : List Byte} (h : exec (.ctrlDataComplete data) s = .next t) :
    Effect s (.ctrlDataComplete data) t := by
  have hbody := whenAlive_next h
  split at hbody
  case h_2 => cases hbody
  case h_1 a harmed =>
    split at hbody
    case isFalse => cases hbody
    case isTrue hlen =>
      obtain ⟨p, n⟩ := a
      dsimp only at hlen hbody
      subst hlen
      by_cases hcap : 0 + data.length ≤ s.params.capacity .ctrlBuf
      · rw [memWrite_inRange hcap] at hbody
        exact effect_of_processPending harmed (by simpa [Params.capacity] using hcap) hbody
      · rw [memWrite, if_neg hcap] at hbody
        cases hbody

theorem effect_of_dataOutComplete {s t : State} {ep : Byte} {data : List Byte}
    (h : exec (.dataOutComplete ep data) s = .next t) : Effect s (.dataOutComplete ep data) t := by
  have hbody := whenAlive_next h
  split at hbody
  case h_1 => cases hbody
  case h_2 p hroute =>
    split at hbody
    case isFalse => cases hbody
    case isTrue harmed =>
      split at hbody
      case isFalse => cases hbody
      case isTrue hlen =>
        rw [storePacket_eq hlen] at hbody
        cases hbody
        exact .outStored hroute harmed hlen

theorem effect_of_uartRxByte {s t : State} {c : Port} {b : Byte} (h : exec (.uartRxByte c b) s = .next t) :
    Effect s (.uartRxByte c b) t := by
  have hbody := whenAlive_next h
  split at hbody
  case isFalse hd =>
    cases hbody
    exact .rxDiscarded (by simpa using hd)
  case isTrue hd =>
    by_cases hr : 1 ≤ (s.chan c).rxRemaining ∧ (s.chan c).rxRemaining ≤ s.params.ringCap
    · rw [dmaStore_eq hr] at hbody
      cases hbody
      exact .rxStored hd hr.1 hr.2
    · rw [dmaStore, if_neg hr] at hbody
      cases hbody

theorem effect_of_uartTxByte {s t : State} {c : Port} (h : exec (.uartTxByte c) s = .next t) :
    Effect s (.uartTxByte c) t := by
  have hbody := whenAlive_next h
  dsimp only at hbody
  split at hbody
  case isFalse => cases hbody
  case isTrue hbusy =>
    split at hbody
    case isFalse => cases hbody
    case isTrue hleft =>
      split at hbody
      case isFalse => cases hbody
      case isTrue =>
        cases hbody
        exact .lineSent hbusy hleft

theorem effect_of_uartTxComplete {s t : State} {c : Port} (h : exec (.uartTxComplete c) s = .next t) :
    Effect s (.uartTxComplete c) t := by
  have hbody := whenAlive_next h
  dsimp only at hbody
  split at hbody
  case isFalse => cases hbody
  case isTrue hbusy =>
    split at hbody
    case isFalse => cases hbody
    case isTrue hdone =>
      cases hbody
      exact .lineDone hbusy hdone

theorem lineErrorOf_some {kind : Byte} {e : LineError} (h : lineErrorOf kind = some e) :
    (e = .overrun ∧ kind = 0x01) ∨ (e = .framing ∧ kind = 0x02) := by
  unfold lineErrorOf at h
  split at h
  · cases h
    exact .inl ⟨rfl, by assumption⟩
  · split at h
    · cases h
      exact .inr ⟨rfl, by assumption⟩
    · cases h

theorem effect_of_uartError {s t : State} {c : Port} {kind : Byte} (h : exec (.uartError c kind) s = .next t) :
    Effect s (.uartError c kind) t := by
  have hbody := whenAlive_next h
  cases hkind : lineErrorOf kind with
  | none =>
    rw [hkind] at hbody
    cases hbody
  | some e =>
    rw [hkind] at hbody
    rcases lineErrorOf_some hkind with ⟨rfl, rfl⟩ | ⟨rfl, rfl⟩
    · cases hbody
      exact .overrun
    · cases hbody
      exact .framing

theorem effect_of_schedRun {s t : State} (h : exec .schedRun s = .next t) : Effect s .schedRun t := by
  cases hc : s.configured with
  | true =>
    obtain ⟨hring, hdrained⟩ := schedDrained_of_exec hc h
    exact .schedDrained hc hring hdrained
  | false =>
    have hbody := whenAlive_next h
    simp only [hc, Bool.false_eq_true, if_false] at hbody
    split at hbody
    · cases hbody
      exact .schedIdle hc
    · cases hbody

/-- Every completed step leaves one of the states of `Effect`. -/
theorem effect_of_exec {s t : State} {i : Instr} (h : exec i s = .next t) : Effect s i t := by
  cases hpkt : setupPacket i with
  | some pkt => exact effect_of_request hpkt h
  | none =>
    cases i with
    | reset => cases h; exact .reset
    | configure => exact effect_of_total h (configure_total (alive_of_exec h (by simp)))
    | deconfigure => exact effect_of_total h (deconfigure_total (alive_of_exec h (by simp)))
    | ctrlDataComplete data => exact effect_of_ctrlDataComplete h
    | dataInComplete ep =>
      rcases execDataInComplete_next h with ⟨hroute, rfl⟩ | ⟨p, hroute, rfl⟩
      · exact .inIgnored hroute
      · exact .inCompleted hroute
    | dataOutComplete ep data => exact effect_of_dataOutComplete h
    | uartRxByte c b => exact effect_of_uartRxByte h
    | uartTxByte c => exact effect_of_uartTxByte h
    | uartTxComplete c => exact effect_of_uartTxComplete h
    | uartError c kind => exact effect_of_uartError h
    | timerTick =>
      cases whenAlive_next (m := .run (setTick true s)) h
      exact .tick
    | schedRun => exact effect_of_schedRun h
    | setup | pathClassNodata | pathClassIn | pathClassOut | pathStdGetInterface | pathOther
    | sendEncapsulatedCommand | getEncapsulatedResponse | setCommFeature | getCommFeature | clearCommFeature
    | setLineCoding | getLineCoding | setControlLineState | sendBreak | classUnknown => cases hpkt

end Sys2Proof.Machine
end

section
/-! What every event leaves unchanged, from the case analysis `Effect`: parameters and history, the pairs an event is
not routed to, and the writers of each buffer and flag. -/

namespace Sys2Proof.Machine

/-! ### Parameters and history -/

/-- The parameters and the queue stay, and the two records only grow. -/
structure KeepsHistory (s t : State) : Prop where
  params : t.params = s.params
  inbox : t.inbox = s.inbox
  out : s.out <+: t.out
  raised : s.raised <+: t.raised

theorem SchedDrained.keepsHistory {s t : State} (h : SchedDrained s t) : KeepsHistory s t where
  params := h.env.1
  inbox := h.env.2.2.1
  out := ⟨_, h.emits.symm⟩
  raised := ⟨_, h.raises.symm⟩

theorem Effect.keepsHistory {s t : State} {i : Instr} (h : Effect s i t) : KeepsHistory s t := by
  cases h
  case schedDrained h => exact h.keepsHistory
  all_goals constructor <;> simp

/-! ### Isolation -/

theorem subject_of_request {s : State} {i : Instr} {pkt : SetupPacket} (h : setupPacket i = some pkt) :
    subject s i = routeIface s (ifaceOf pkt.wIndex) := by
  simp only [subject, setupIndex, h, Option.map_some]

theorem lifecycle_of_request {i : Instr} {pkt : SetupPacket} (h : setupPacket i = some pkt) : lifecycle i = false := by
  cases i with
  | reset | configure | deconfigure => cases h
  | _ => rfl

/-- A step other than a lifecycle event and SCHED_RUN leaves alone every pair it is not routed to. -/
theorem Effect.samePair {s t : State} {i : Instr} {q : Port} (h : Effect s i t) (hl : lifecycle i = false)
    (hi : i ≠ .schedRun) (hq : subject s i ≠ some q) : SamePair s t q := by
  have hrouted : ∀ {pkt p}, setupPacket i = some pkt → routeIface s (ifaceOf pkt.wIndex) = some p → q ≠ p := by
    rintro pkt p hpkt hroute rfl
    exact hq ((subject_of_request hpkt).trans hroute)
  cases h with
  | @requestReadBack _ _ p _ hpkt hroute | @requestSet _ _ p _ hpkt hroute | @requestHalted _ _ p hpkt hroute
  | @requestArmed _ _ p hpkt hroute =>
    have hne : q ≠ p := hrouted hpkt hroute
    simp [SamePair, hne, State.store_byteAt]
  | @dataStageUnclaimed _ p harmed | @dataStageKept _ p _ harmed | @dataStageReadBack _ p _ harmed
  | @dataStageSet _ p _ harmed | @dataStageHalted _ p _ harmed =>
    have hne : q ≠ p := fun e => hq (by simp [subject, setupIndex, setupPacket, harmed, e])
    simp [SamePair, hne, State.store_byteAt]
  | @inCompleted _ p hroute | @outStored _ _ p hroute =>
    have hne : q ≠ p := fun e => hq (by simp [subject, setupIndex, setupPacket, hroute, e])
    simp [SamePair, hne, State.store_byteAt]
  | @rxStored c | @lineSent c | @lineDone c | @overrun c | @framing c =>
    have hne : q ≠ c := fun e => hq (by simp [subject, setupIndex, setupPacket, e])
    simp [SamePair, hne, State.store_byteAt]
  | reset | configureIgnored | configureNoMemory | configureHaltedFirst | configureHaltedSecond | configured
  | deconfigureIgnored | deconfigureHaltedFirst | deconfigureHaltedSecond | deconfigured => cases hl
  | schedIdle | schedDrained => exact absurd rfl hi
  | requestDropped | requestKept | inIgnored | rxDiscarded | tick => exact ⟨rfl, rfl, fun _ _ => rfl⟩

/-! ### The armed OUT endpoints -/

/-- Only CONFIGURE and UART_TX_COMPLETE arm an OUT endpoint (R224, D21). -/
theorem Effect.outArmed_set {s t : State} {i : Instr} {p : Port} (h : Effect s i t)
    (hs : (s.port p).outArmed = false) (ht : (t.port p).outArmed = true) : i = .configure ∨ i = .uartTxComplete p := by
  cases h with
  | configureIgnored | configureNoMemory | configureHaltedFirst | configureHaltedSecond | configured => exact .inl rfl
  | @lineDone c =>
    by_cases hpc : p = c
    · exact .inr (by rw [hpc])
    · simp [hpc, hs] at ht
  | schedDrained _ _ h => simp [(h.pair p).outArmed, hs] at ht
  | _ => exfalso; simp_all [State.modPort_port, apply_ite, PortRegs.initial]

/-! ### The actions of a step -/

theorem SchedDrained.newActions_eq {s t : State} (h : SchedDrained s t) :
    newActions s t = sentBy s .p0 ++ sentBy s .p1 := by
  rw [newActions, h.emits, List.drop_left]

theorem mem_sentBy {s : State} {p : Port} {a : Action} (h : a ∈ sentBy s p) :
    a = .usbTransmit (s.params.epIn.get p) (unreadBytes s p) ∧ (s.port p).txState = .idle := by
  unfold sentBy at h
  split at h
  · next hsent => exact ⟨List.mem_singleton.mp h, hsent.2⟩
  · cases h

theorem SchedDrained.mem_newActions {s t : State} (h : SchedDrained s t) {a : Action} (ha : a ∈ newActions s t) :
    ∃ q, a = .usbTransmit (s.params.epIn.get q) (unreadBytes s q) ∧ (s.port q).txState = .idle := by
  rw [h.newActions_eq, List.mem_append] at ha
  exact ha.elim (fun h0 => ⟨.p0, mem_sentBy h0⟩) fun h1 => ⟨.p1, mem_sentBy h1⟩

/-- Where an action of the data streams comes from: the arming of an OUT endpoint (R224, D21), a transfer to the host
(R195), a byte on a line (R165). -/
def ActionOrigin (s : State) (i : Instr) : Action → Prop
  | .armReceive ep => i = .configure ∨ ∃ c, i = .uartTxComplete c ∧ ep = s.params.epOut.get c
  | .usbTransmit ep bytes =>
    i = .schedRun ∧ ∃ q, ep = s.params.epIn.get q ∧ bytes = unreadBytes s q ∧ (s.port q).txState = .idle
  | .lineByte c _ _ => i = .uartTxByte c
  | _ => True

theorem Effect.actionOrigin {s t : State} {i : Instr} (h : Effect s i t) :
    ∀ a ∈ newActions s t, ActionOrigin s i a := by
  cases h with
  | schedDrained _ _ h =>
    intro a ha
    obtain ⟨q, rfl, hidle⟩ := h.mem_newActions ha
    exact ⟨rfl, q, rfl, rfl, hidle⟩
  | requestKept reply | requestReadBack reply | requestSet reply =>
    cases reply <;> simp [newActions, replyActions, ActionOrigin]
  | requestHalted | dataStageHalted =>
    have hfailed (c : Port) (u : State) (i : Instr) (a : Action) (ha : a ∈ failedReconfigurationActions c u) :
        ActionOrigin s i a := by
      rcases mem_failedReconfigurationActions ha with rfl | ⟨cfg, rfl⟩ <;> trivial
    simpa [newActions, or_imp, forall_and] using ⟨hfailed _ _ _, trivial⟩
  | _ => simp [newActions, openActionsOf, closeActionsOf, ActionOrigin]

/-! ### The writers of the buffers (R60) -/

section Writers

variable {s t : State} {i : Instr} {p : Port} {k : Nat}

theorem Effect.rxRing_writer (h : Effect s i t) (hi : i ≠ .reset)
    (hb : t.byteAt .rxRing p k ≠ s.byteAt .rxRing p k) :
    k = writeCursor s.params.ringCap (s.chan p).rxRemaining ∧ i = .uartRxByte p (t.byteAt .rxRing p k) := by
  cases h with
  | reset => exact absurd rfl hi
  | @rxStored c b =>
    by_cases hin : p = c ∧ k = writeCursor s.params.ringCap (s.chan c).rxRemaining
    · obtain ⟨rfl, rfl⟩ := hin
      rw [receivedState_byteAt, if_pos rfl]
      exact ⟨rfl, rfl⟩
    · refine absurd (receivedState_sameBytesOutside s c b .rxRing p k fun h => hin ⟨h.1.2, ?_⟩) hb
      omega
  | schedDrained _ _ h => exact absurd ((h.pair p).byteAt_eq (.inl (by simp)) k) hb
  | _ => exact absurd (by simp [State.store_byteAt]) hb

theorem Effect.txBuf_writer (h : Effect s i t) (hi : i ≠ .reset)
    (hb : t.byteAt .txBuf p k ≠ s.byteAt .txBuf p k) : i = .schedRun ∧ (s.port p).txState = .idle := by
  cases h with
  | reset => exact absurd rfl hi
  | schedDrained _ _ h =>
    refine ⟨rfl, ?_⟩
    cases hst : (s.port p).txState with
    | idle => rfl
    | busy => exact absurd ((h.pair p).byteAt_eq (.inr hst) k) hb
  | _ => exact absurd (by simp [State.store_byteAt]) hb

/-- Routing finds a port whose entry the byte is, whether or not the entries differ. -/
theorem portWith_get {xs : Two Byte} {b : Byte} {q : Port} (h : portWith xs b = some q) : b = xs.get q := by
  unfold portWith at h
  split at h
  · cases h; assumption
  · split at h
    · cases h; assumption
    · cases h

theorem routeOut_get {s : State} {ep : Byte} {q : Port} (h : routeOut s ep = some q) : ep = s.params.epOut.get q := by
  unfold routeOut at h
  split at h
  · exact portWith_get h
  · cases h

theorem Effect.rxBuf_writer (h : Effect s i t) (hi : i ≠ .reset)
    (hb : t.byteAt .rxBuf p k ≠ s.byteAt .rxBuf p k) :
    ∃ data, i = .dataOutComplete (s.params.epOut.get p) data ∧ k < data.length := by
  cases h with
  | reset => exact absurd rfl hi
  | @outStored ep data q hroute =>
    by_cases hin : p = q ∧ k < data.length
    · obtain ⟨rfl, hk⟩ := hin
      exact ⟨data, by rw [routeOut_get hroute], hk⟩
    · refine absurd (SameBytesOutside.store s .rxBuf q 0 data .rxBuf p k fun h => hin ⟨h.1.2, ?_⟩) hb
      omega
  | schedDrained _ _ h => exact absurd ((h.pair p).byteAt_eq (.inl (by simp)) k) hb
  | _ => exact absurd (by simp [State.store_byteAt]) hb

theorem Effect.ctrlBuf_writer (h : Effect s i t) (hi : i ≠ .reset)
    (hb : t.byteAt .ctrlBuf p k ≠ s.byteAt .ctrlBuf p k) :
    (∃ data, i = .ctrlDataComplete data) ∨ setupIndex i ≠ none := by
  cases h with
  | reset => exact absurd rfl hi
  | requestReadBack _ hpkt => exact .inr (by simp [setupIndex, hpkt])
  | dataStageUnclaimed | dataStageKept | dataStageReadBack | dataStageSet | dataStageHalted => exact .inl ⟨_, rfl⟩
  | schedDrained _ _ h => exact absurd ((h.pair p).byteAt_eq (.inl (by simp)) k) hb
  | _ => exact absurd (by simp [State.store_byteAt]) hb

end Writers

/-! ### A transfer in flight -/

/-- A Busy port's length changes only in a lifecycle event. -/
theorem Effect.txLen_of_busy {s t : State} {i : Instr} {p : Port} (h : Effect s i t) (hl : lifecycle i = false)
    (hbusy : (s.port p).txState = .busy) : (t.port p).txLen = (s.port p).txLen := by
  cases h with
  | reset | configureIgnored | configureNoMemory | configureHaltedFirst | configureHaltedSecond | configured
  | deconfigureIgnored | deconfigureHaltedFirst | deconfigureHaltedSecond | deconfigured => cases hl
  | schedDrained _ _ h => rw [((h.pair p).kept (.inr hbusy)).1]
  | _ => simp [State.modPort_port, apply_ite PortRegs.txLen]

theorem Two.get_injective {xs : Two Byte} (hne : xs.at0 ≠ xs.at1) {p q : Port} (h : xs.get p = xs.get q) :
    p = q := by
  cases p <;> cases q
  · rfl
  · exact absurd h hne
  · exact absurd h.symm hne
  · rfl

theorem epIn_injective {params : Params} (hv : params.Valid) {p q : Port}
    (h : params.epIn.get p = params.epIn.get q) : p = q := Two.get_injective (params_distinct hv).2.1 h

end Sys2Proof.Machine

namespace Sys2Proof.Proofs

open Sys2Proof.Machine

/-- Settles O12: `Effect` keeps the parameters and the rest of the queue, and appends to both records; the fetch takes
one event. -/
theorem stepKeepsParametersAndHistory : Obligations.StepKeepsParametersAndHistory := by
  intro s t h
  cases hin : s.inbox with
  | nil =>
    rw [step_idle hin] at h
    cases h
    exact ⟨rfl, List.prefix_rfl, List.prefix_rfl, hin⟩
  | cons d rest =>
    cases hd : decode d.record with
    | error e =>
      rw [step_undecodable hin hd] at h
      cases h
    | ok i =>
      rw [step_cons hin hd] at h
      obtain ⟨hparams, hinbox, hout, hraised⟩ := (effect_of_exec h).keepsHistory
      exact ⟨hparams, hout, hraised, hinbox⟩

/-- Settles O38: the step by `Effect.samePair`; a drain by its own frame. -/
theorem portsAreIsolated : Obligations.PortsAreIsolated := by
  refine ⟨fun i s t q hl hi hq h => (effect_of_exec h).samePair hl hi hq, fun s t p h => ?_⟩
  obtain ⟨hring, heffect⟩ := drain_run h
  exact (heffect.drained hring).other

/-- Settles O45: the successful CONFIGURE leaves `configuredState`; that nothing else arms is read off `Effect`. -/
theorem outEndpointsAreArmedBy : Obligations.OutEndpointsAreArmedBy := by
  refine ⟨fun s t h hs ht => ?configured, fun i s t p h => (effect_of_exec h).outArmed_set,
    fun i s t ep h => (effect_of_exec h).actionOrigin _⟩
  case configured =>
    have heffect := effect_of_exec h
    cases heffect with
    | configured =>
      refine ⟨fun p => by cases p <;> simp, openActionsOf s .p0 ++ openActionsOf s .p1 ++
        [.uartInit .p0 defaultFraming, .dmaStart .p0, .uartInit .p1 defaultFraming], ?_, fun ep => ?_⟩
      · simp [newActions]
      · simp [openActionsOf]
    | _ => simp_all

/-- Settles O47: R26 keeps the port Busy, and of the writers of its length, its buffer and its endpoint none is at
work while it is. -/
theorem busyTransferIsExclusive : Obligations.BusyTransferIsExclusive := by
  intro i s t p hv h hbusy hin hl
  have heffect := effect_of_exec h
  have hreset : i ≠ .reset := by rintro rfl; cases hl
  refine ⟨?busy, heffect.txLen_of_busy hl hbusy, fun k => ?bytes, fun bytes hmem => ?transmit⟩
  case busy =>
    cases ht : (t.port p).txState with
    | busy => rfl
    | idle => exact absurd (exec_becomesIdle hv h hbusy ht) (by simp [hin, hl])
  case bytes =>
    by_contra hne
    exact TxState.ne_idle hbusy (heffect.txBuf_writer hreset hne).2
  case transmit =>
    obtain ⟨-, q, hep, -, hidle⟩ := heffect.actionOrigin _ hmem
    exact TxState.ne_idle hbusy (epIn_injective hv hep ▸ hidle)

/-- Settles O60: one writer lemma for each buffer. -/
theorem buffersHaveTheListedWriters : Obligations.BuffersHaveTheListedWriters := by
  intro i s t p k h hi
  have heffect := effect_of_exec h
  exact ⟨heffect.rxRing_writer hi, heffect.txBuf_writer hi, heffect.rxBuf_writer hi, heffect.ctrlBuf_writer hi⟩

end Sys2Proof.Proofs
end

section
/-! The invariant of R46: the rules of one pair of port and channel, the rules of the armed data stage, and that every
state of `Effect` keeps them. -/

namespace Sys2Proof.Machine

/-! ### The rules of one pair -/

/-- The part of `LiveRules` that speaks of one port's registers `r` and its channel's registers `c`. -/
structure PairRules (params : Params) (configured : Bool) (r : PortRegs) (c : ChanRegs) : Prop where
  ring : 1 ≤ c.rxRemaining ∧ c.rxRemaining ≤ params.ringCap ∧ c.rxReadCursor < params.ringCap
  armedNotSending : r.outArmed = true → c.uartTxBusy = false
  idle : configured = false → r.txState = .idle ∧ r.outArmed = false ∧ r.pendingCommand = none ∧
    c.dmaRunning = false ∧ c.uartTxBusy = false
  busyLength : r.txState = .busy → 1 ≤ r.txLen ∧ r.txLen ≤ params.ringCap - 1
  sendingLength : c.uartTxBusy = true → c.uartTxLen = r.rxLength
  lineRange : c.uartTxPos ≤ c.uartTxLen ∧ c.uartTxLen ≤ params.maxPacket
  running : configured = true → c.dmaRunning = true
  framing : c.uartCfg = cfgOf r.lineCoding

/-- The part of `LiveRules` that speaks of the armed data stage. -/
structure ArmedRules (s : State) : Prop where
  configured : ∀ a, s.ctrlRxArmed = some a → s.configured = true
  pending : ∀ a, s.ctrlRxArmed = some a → ∃ c, (s.port a.port).pendingCommand = some c ∧ c.length.toNat = a.length
  range : ∀ a, s.ctrlRxArmed = some a → 1 ≤ a.length ∧ a.length ≤ s.params.ctrlBufCap

theorem LiveRules.pairRules {s : State} (h : LiveRules s) (p : Port) :
    PairRules s.params s.configured (s.port p) (s.chan p) where
  ring := h.ringRegisters p
  armedNotSending := h.armedNotSending p
  idle := fun hc => (h.unconfiguredIdle hc).2 p
  busyLength := h.busyLength p
  sendingLength := h.sendingLength p
  lineRange := h.lineRange p
  running := fun hc => h.configuredRunning hc p
  framing := h.framingCurrent p

theorem LiveRules.armedRules {s : State} (h : LiveRules s) : ArmedRules s where
  configured := fun a ha => by
    by_contra hc
    simp [(h.unconfiguredIdle (by simpa using hc)).1] at ha
  pending := h.armedPending
  range := h.armedRange

theorem LiveRules.of_rules {s : State} (hp : ∀ p, PairRules s.params s.configured (s.port p) (s.chan p))
    (ha : ArmedRules s) : LiveRules s where
  ringRegisters := fun p => (hp p).ring
  armedNotSending := fun p => (hp p).armedNotSending
  unconfiguredIdle := fun hc => by
    refine ⟨?_, fun p => (hp p).idle hc⟩
    cases harmed : s.ctrlRxArmed with
    | none => rfl
    | some a => exact absurd (ha.configured a harmed) (by simp [hc])
  busyLength := fun p => (hp p).busyLength
  sendingLength := fun p => (hp p).sendingLength
  lineRange := fun p => (hp p).lineRange
  armedPending := ha.pending
  armedRange := ha.range
  configuredRunning := fun hc p => (hp p).running hc
  framingCurrent := fun p => (hp p).framing

theorem ArmedRules.of_none {s : State} (h : s.ctrlRxArmed = none) : ArmedRules s := by
  constructor <;> simp [h]

theorem ArmedRules.congr {s t : State} (h : ArmedRules s) (harmed : t.ctrlRxArmed = s.ctrlRxArmed)
    (hc : t.configured = s.configured) (hparams : t.params = s.params)
    (hpend : ∀ p, (t.port p).pendingCommand = (s.port p).pendingCommand) : ArmedRules t := by
  obtain ⟨hconf, hpending, hrange⟩ := h
  constructor <;> rw [harmed]
  · rw [hc]; exact hconf
  · simp only [hpend]; exact hpending
  · rw [hparams]; exact hrange

namespace PairRules

variable {params : Params} {conf : Bool} {r : PortRegs} {c : ChanRegs}

/-- A pair at its reset values, whatever its sticky error flags, while unconfigured. -/
theorem initial (hcap : 1 ≤ params.ringCap) (overrun framing : Bool) :
    PairRules params false PortRegs.initial
      { ChanRegs.initial params.ringCap with errOverrun := overrun, errFraming := framing } where
  ring := ⟨hcap, le_rfl, hcap⟩
  armedNotSending := fun _ => rfl
  idle := fun _ => ⟨rfl, rfl, rfl, rfl, rfl⟩
  busyLength := nofun
  sendingLength := nofun
  lineRange := ⟨le_rfl, Nat.zero_le _⟩
  running := nofun
  framing := rfl

variable (h : PairRules params conf r c)

include h

theorem setPending (hc : conf = true) (x : Option PendingCommand) :
    PairRules params conf { r with pendingCommand := x } c :=
  { h with idle := fun hc' => by simp [hc] at hc' }

/-- A reconfiguration of the channel to a new line coding. -/
theorem reconfigured (hc : conf = true) (hcap : 1 ≤ params.ringCap) (lc : LineCoding) :
    PairRules params conf { r with lineCoding := lc }
      { c with rxRemaining := params.ringCap, rxReadCursor := 0, dmaRunning := true, uartCfg := cfgOf lc } :=
  { h with
    ring := ⟨hcap, le_rfl, hcap⟩
    idle := fun hc' => by simp [hc] at hc'
    running := fun _ => rfl
    framing := rfl }

theorem setTxIdle : PairRules params conf { r with txState := .idle } c :=
  { h with
    idle := fun hc => ⟨rfl, (h.idle hc).2⟩
    busyLength := nofun }

/-- A packet taken from an armed endpoint. -/
theorem packet (harmed : r.outArmed = true) {n : Nat} (hn : n ≤ params.maxPacket) (busy : Bool) :
    PairRules params conf { r with rxLength := n, outArmed := false }
      { c with uartTxLen := n, uartTxPos := 0, uartTxBusy := busy } :=
  { h with
    armedNotSending := nofun
    idle := fun hc => absurd harmed (by simp [(h.idle hc).2.1])
    sendingLength := fun _ => rfl
    lineRange := ⟨Nat.zero_le _, hn⟩ }

theorem received : PairRules params conf r { c with rxRemaining := nextRemaining params.ringCap c.rxRemaining } := by
  obtain ⟨hpos, hcap, hcur⟩ := h.ring
  obtain ⟨hpos', hcap'⟩ := nextRemaining_range hpos hcap
  exact { h with ring := ⟨hpos', hcap', hcur⟩ }

theorem lineSent (hleft : c.uartTxPos < c.uartTxLen) :
    PairRules params conf r { c with uartTxPos := c.uartTxPos + 1 } :=
  { h with lineRange := ⟨hleft, h.lineRange.2⟩ }

theorem lineDone (hbusy : c.uartTxBusy = true) :
    PairRules params conf { r with outArmed := true } { c with uartTxBusy := false } :=
  { h with
    armedNotSending := fun _ => rfl
    idle := fun hc => absurd hbusy (by simp [(h.idle hc).2.2.2.2])
    sendingLength := nofun }

theorem setErrors (overrun framing : Bool) :
    PairRules params conf r { c with errOverrun := overrun, errFraming := framing } := { h with }

theorem setReadCursor {cursor : Nat} (hcur : cursor < params.ringCap) :
    PairRules params conf r { c with rxReadCursor := cursor } :=
  { h with ring := ⟨h.ring.1, h.ring.2.1, hcur⟩ }

theorem sent (hc : conf = true) {n : Nat} (hpos : 1 ≤ n) (hn : n < params.ringCap) :
    PairRules params conf { r with txLen := n, txState := .busy } c :=
  { h with
    idle := fun hc' => by simp [hc] at hc'
    busyLength := fun _ => ⟨hpos, Nat.le_pred_of_lt hn⟩ }

end PairRules

theorem SchedDrained.pairRules {s t : State} (h : SchedDrained s t) (hc : s.configured = true) {p : Port}
    (hp : PairRules s.params s.configured (s.port p) (s.chan p)) :
    PairRules s.params s.configured (t.port p) (t.chan p) := by
  obtain ⟨hpos, hcap, hcur⟩ := hp.ring
  have hdrained := hp.setReadCursor (writeCursor_lt hpos hcap)
  rw [(h.pair p).chan]
  by_cases hkeep : unreadCount s p = 0 ∨ (s.port p).txState = .busy
  · rw [((h.pair p).kept hkeep).1]
    exact hdrained
  · simp only [not_or] at hkeep
    obtain ⟨hn, hst⟩ := hkeep
    rw [((h.pair p).sent hn (TxState.idle_of_ne_busy hst)).1]
    exact hdrained.sent hc (Nat.one_le_iff_ne_zero.mpr hn) (unreadCount_lt hpos hcap hcur)

/-- The rules of the pair of `q` where only the pair of `p` was written. -/
theorem PairRules.of_modified {params : Params} {conf : Bool} {p q : Port} {r r' : Port → PortRegs}
    {c c' : Port → ChanRegs} (hq : PairRules params conf (r q) (c q))
    (hp : PairRules params conf (r p) (c p) → PairRules params conf (r' p) (c' p))
    (hr : q ≠ p → r' q = r q := by simp +contextual) (hc : q ≠ p → c' q = c q := by simp +contextual) :
    PairRules params conf (r' q) (c' q) := by
  by_cases hqp : q = p
  · subst hqp
    exact hp hq
  · rw [hr hqp, hc hqp]
    exact hq

/-- A step other than a lifecycle event keeps the rules of every pair, unless it halts the block. -/
theorem Effect.pairRules {s t : State} {i : Instr} (h : Effect s i t) (hl : lifecycle i = false) (hlive : LiveRules s)
    (hv : s.params.Valid) (hf : t.fatal = false) (q : Port) :
    PairRules s.params s.configured (t.port q) (t.chan q) := by
  have hp := hlive.pairRules
  have hcap : 1 ≤ s.params.ringCap := Nat.one_le_of_lt hv.1
  have hrouted : ∀ {iface p}, routeIface s iface = some p → s.configured = true := fun h =>
    ((routeIface_eq_some hv).mp h).1
  have hstage : ∀ {a}, s.ctrlRxArmed = some a → s.configured = true := hlive.armedRules.configured _
  cases h with
  | reset | configureIgnored | configureNoMemory | configureHaltedFirst | configureHaltedSecond | configured
  | deconfigureIgnored | deconfigureHaltedFirst | deconfigureHaltedSecond | deconfigured => cases hl
  | requestHalted | dataStageHalted => cases hf
  | schedDrained hc _ h => exact h.pairRules hc (hp q)
  | @requestSet _ _ p _ _ hroute =>
    exact (hp q).of_modified (p := p) fun h => by simpa using h.reconfigured (hrouted hroute) hcap _
  | @requestArmed _ _ p _ hroute =>
    exact (hp q).of_modified (p := p) fun h => by simpa using h.setPending (hrouted hroute) _
  | @dataStageKept _ p _ harmed | @dataStageReadBack _ p _ harmed =>
    exact (hp q).of_modified (p := p) fun h => by simpa using h.setPending (hstage harmed) _
  | @dataStageSet _ p _ harmed =>
    exact (hp q).of_modified (p := p)
      fun h => by
      simpa using (h.reconfigured (hstage harmed) hcap _).setPending (hstage harmed) _
  | @inCompleted _ p =>
    exact (hp q).of_modified (p := p) fun h => by simpa using h.setTxIdle
  | @outStored _ _ p _ harmed hlen =>
    exact (hp q).of_modified (p := p) fun h => by simpa using h.packet harmed hlen _
  | @rxStored c =>
    exact (hp q).of_modified (p := c) fun h => by simpa using h.received
  | @lineSent c _ hleft =>
    exact (hp q).of_modified (p := c) fun h => by simpa using h.lineSent hleft
  | @lineDone c hbusy =>
    exact (hp q).of_modified (p := c) fun h => by simpa using h.lineDone hbusy
  | @overrun c | @framing c =>
    exact (hp q).of_modified (p := c) fun h => by simpa using h.setErrors _ _
  | requestDropped | requestKept | requestReadBack | dataStageUnclaimed | inIgnored | rxDiscarded | tick
  | schedIdle => simpa using hp q

theorem SchedDrained.armedRules {s t : State} (h : SchedDrained s t) (ha : ArmedRules s) : ArmedRules t :=
  ha.congr h.armed h.configured h.env.1 fun p => (h.pair p).pendingCommand

/-- A step other than a lifecycle event keeps `configured`. -/
theorem Effect.configured_eq {s t : State} {i : Instr} (h : Effect s i t) (hl : lifecycle i = false) :
    t.configured = s.configured := by
  cases h with
  | reset | configureIgnored | configureNoMemory | configureHaltedFirst | configureHaltedSecond | configured
  | deconfigureIgnored | deconfigureHaltedFirst | deconfigureHaltedSecond | deconfigured => cases hl
  | schedDrained _ _ h => exact h.configured
  | _ => simp

/-- A step other than a lifecycle event keeps the rules of the armed data stage: it leaves none, a fresh one, or the
one there was with the pending commands as they were. -/
theorem Effect.armedRules {s t : State} {i : Instr} (h : Effect s i t) (hl : lifecycle i = false) (hwf : i.wf = true)
    (hv : s.params.Valid) (ha : ArmedRules s) : ArmedRules t := by
  cases h with
  | reset | configureIgnored | configureNoMemory | configureHaltedFirst | configureHaltedSecond | configured
  | deconfigureIgnored | deconfigureHaltedFirst | deconfigureHaltedSecond | deconfigured => cases hl
  | requestDropped | requestKept | requestReadBack | requestSet | requestHalted | dataStageUnclaimed | dataStageKept
  | dataStageReadBack | dataStageSet | dataStageHalted => exact .of_none (by simp)
  | @requestArmed _ pkt p _ hroute _ _ h0 hlen =>
    have hpos : 1 ≤ pkt.wLength.toNat := Nat.one_le_iff_ne_zero.mpr fun h => h0 hwf (BitVec.eq_of_toNat_eq h)
    have hc : s.configured = true := ((routeIface_eq_some hv).mp hroute).1
    constructor <;> simp [hpos, hlen, hc]
  | schedDrained _ _ h => exact h.armedRules ha
  | _ =>
    refine ha.congr (by simp) (by simp) (by simp) fun p => ?_
    simp [State.modPort_port, apply_ite PortRegs.pendingCommand]

/-- Every state of `Effect` has canonical buffers. -/
theorem Effect.buffersOk {s t : State} {i : Instr} (h : Effect s i t) (hb : BuffersOk s) : BuffersOk t := by
  cases h with
  | reset => exact .of_unwritten rfl
  | requestReadBack _ _ _ _ hcap =>
    exact (hb.store (b := .ctrlBuf) (i := 0) (by simpa [Params.capacity] using hcap)).of_same rfl rfl
  | @dataStageUnclaimed data p _ hlen | @dataStageKept data p _ _ hlen | @dataStageSet data p _ _ hlen
  | @dataStageHalted data p _ _ hlen =>
    have hstore : 0 + data.length ≤ s.params.capacity .ctrlBuf := by simpa [Params.capacity] using hlen
    exact (hb.store (p := p) hstore).of_same (by simp) (by simp)
  | @dataStageReadBack data p _ _ hlen _ hcap =>
    have hstored : BuffersOk (dataStageState s p data) :=
      (hb.store (b := .ctrlBuf) (p := p) (i := 0) (by simpa [Params.capacity] using hlen)).of_same rfl rfl
    exact (hstored.store (b := .ctrlBuf) (i := 0) (by simpa [Params.capacity] using hcap)).of_same rfl rfl
  | @outStored _ data p _ _ hlen =>
    exact (hb.store (b := .rxBuf) (p := p) (i := 0) (by simpa [Params.capacity] using hlen)).of_same rfl rfl
  | @rxStored c b _ hpos hcap =>
    exact (hb.store (b := .rxRing) (p := c) (vs := [b]) (writeCursor_lt hpos hcap)).of_same rfl rfl
  | schedDrained _ _ h => exact h.buffers hb
  | _ => exact hb.of_same (by simp) (by simp)

/-! ### The invariant at reset and through a step -/

/-- The rules in a state in which nothing is created: the pairs at their reset values but for the error flags. -/
theorem LiveRules.of_initial {s : State} (hcap : 1 ≤ s.params.ringCap) (hc : s.configured = false)
    (harmed : s.ctrlRxArmed = none) (hports : ∀ p, s.port p = PortRegs.initial)
    (hchans : ∀ c, ∃ overrun framing,
      s.chan c = { ChanRegs.initial s.params.ringCap with errOverrun := overrun, errFraming := framing }) :
    LiveRules s := by
  refine .of_rules (fun p => ?_) (.of_none harmed)
  obtain ⟨overrun, framing, hchan⟩ := hchans p
  rw [hc, hports, hchan]
  exact PairRules.initial hcap overrun framing

/-- A created pair whose channel is initialised and whose endpoint is armed. -/
theorem PairRules.created {params : Params} {c : ChanRegs} (hcap : 1 ≤ params.ringCap) (hd : c.dmaRunning = true)
    (hring : c.rxRemaining = params.ringCap ∧ c.rxReadCursor = 0)
    (hline : c.uartTxBusy = false ∧ c.uartTxLen = 0 ∧ c.uartTxPos = 0) (hcfg : c.uartCfg = defaultFraming) :
    PairRules params true { PortRegs.initial with outArmed := true } c where
  ring := by rw [hring.1, hring.2]; exact ⟨hcap, le_rfl, hcap⟩
  armedNotSending := fun _ => hline.1
  idle := nofun
  busyLength := nofun
  sendingLength := by simp [hline.1]
  lineRange := by simp [hline.2.1, hline.2.2]
  running := fun _ => hd
  framing := hcfg

theorem configuredState_port (s : State) (p : Port) :
    (configuredState s).port p = { PortRegs.initial with outArmed := true } := by cases p <;> simp

theorem configuredState_chan (s : State) (c : Port) :
    (configuredState s).chan c = { s.chan c with
      rxRemaining := s.params.ringCap, rxReadCursor := 0, dmaRunning := true, uartCfg := defaultFraming,
      uartTxBusy := false, uartTxLen := 0, uartTxPos := 0 } := by cases c <;> simp

theorem configuredState_live {s : State} (hcap : 1 ≤ s.params.ringCap) (harmed : s.ctrlRxArmed = none) :
    LiveRules (configuredState s) := by
  refine .of_rules (fun p => ?_) (.of_none (by simpa using harmed))
  rw [configuredState_port, configuredState_chan]
  exact PairRules.created hcap rfl ⟨rfl, rfl⟩ ⟨rfl, rfl, rfl⟩ rfl

theorem resetAll_live {s : State} (hv : s.params.Valid) : LiveRules (resetAll s) :=
  .of_initial (Nat.one_le_of_lt hv.1) rfl rfl (resetAll_port s) fun c => ⟨false, false, resetAll_chan s c⟩

/-- A lifecycle event keeps the rules unless it halts the block. -/
theorem Effect.live_lifecycle {s t : State} {i : Instr} (h : Effect s i t) (hl : lifecycle i = true)
    (hlive : LiveRules s) (hv : s.params.Valid) (hf : t.fatal = false) : LiveRules t := by
  have hcap : 1 ≤ s.params.ringCap := Nat.one_le_of_lt hv.1
  cases h with
  | reset => exact resetAll_live hv
  | configureIgnored | deconfigureIgnored => exact hlive
  | configureNoMemory => exact .of_rules hlive.pairRules (hlive.armedRules.congr rfl rfl rfl fun _ => rfl)
  | configureHaltedFirst | configureHaltedSecond | deconfigureHaltedFirst | deconfigureHaltedSecond => cases hf
  | configured hc => exact configuredState_live hcap (hlive.unconfiguredIdle hc).1
  | deconfigured => exact .of_initial hcap rfl rfl (fun p => by simp) fun c => ⟨_, _, by simp; rfl⟩
  | requestDropped hpkt | requestKept _ hpkt | requestReadBack _ hpkt | requestSet _ hpkt | requestHalted hpkt
  | requestArmed hpkt =>
    rw [lifecycle_of_request hpkt] at hl
    cases hl
  | _ => cases hl

/-- Every completed step of a well-formed event keeps the rules unless it halts the block. -/
theorem Effect.live {s t : State} {i : Instr} (h : Effect s i t) (hwf : i.wf = true) (hlive : LiveRules s)
    (hv : s.params.Valid) (hf : t.fatal = false) : LiveRules t := by
  cases hl : lifecycle i with
  | false =>
    refine .of_rules (fun q => ?_) (h.armedRules hl hwf hv hlive.armedRules)
    rw [h.keepsHistory.params, h.configured_eq hl]
    exact h.pairRules hl hlive hv hf q
  | true => exact h.live_lifecycle hl hlive hv hf

/-- What the fetch writes is nothing the invariant speaks of. -/
theorem Invariant.fetched {s : State} (h : Invariant s) (rest : List Delivery) (draws : Draws) :
    Invariant { s with inbox := rest, draws := draws } where
  params := h.params
  buffers := h.buffers.of_same rfl rfl
  live := fun hf => .of_rules (h.live hf).pairRules ((h.live hf).armedRules.congr rfl rfl rfl fun _ => rfl)

theorem exec_keepsInvariant {s t : State} {i : Instr} (hinv : Invariant s) (hwf : i.wf = true)
    (h : exec i s = .next t) : Invariant t := by
  have heffect := effect_of_exec h
  refine ⟨heffect.keepsHistory.params ▸ hinv.params, heffect.buffersOk hinv.buffers, fun hf => ?_⟩
  cases hs : s.fatal with
  | false => exact heffect.live hwf (hinv.live hs) hinv.params hf
  | true =>
    by_cases hr : i = .reset
    · subst hr
      cases h
      exact resetAll_live hinv.params
    · exact absurd (alive_of_exec h hr) (by simp [hs])

end Sys2Proof.Machine

namespace Sys2Proof.Proofs

open Sys2Proof.Machine

/-- Settles O9: the reset state has nothing created. -/
theorem resetSatisfiesInvariant : Obligations.ResetSatisfiesInvariant :=
  ⟨by decide, reset_buffersOk, fun _ => .of_initial (by decide) rfl rfl (fun p => by cases p <;> rfl)
    fun c => ⟨false, false, by cases c <;> rfl⟩⟩

/-- Settles O10: the fetch touches nothing the invariant speaks of, a decoded event is well formed, and its effect
keeps the invariant. -/
theorem stepKeepsInvariant : Obligations.StepKeepsInvariant := by
  intro s t hinv h
  cases hin : s.inbox with
  | nil =>
    rw [step_idle hin] at h
    cases h
    exact hinv
  | cons d rest =>
    cases hd : decode d.record with
    | error e =>
      rw [step_undecodable hin hd] at h
      cases h
    | ok i =>
      rw [step_cons hin hd] at h
      exact exec_keepsInvariant (hinv.fetched rest d.draws) (encodeOfDecode _ _ hd).2 h

end Sys2Proof.Proofs
end

section
/-! Under the invariant no step leaves a buffer (R61): every access of every procedure is in range. -/

namespace Sys2Proof.Machine

/-- A procedure that does not fault. -/
def FaultFree (m : Proc) : Prop := ∀ f, m ≠ .fault f

theorem faultFree_run (s : State) : FaultFree (.run s) := fun _ => nofun
theorem faultFree_ended (s : State) : FaultFree (.ended s) := fun _ => nofun
theorem faultFree_refused (r : Refusal) : FaultFree (.refused r) := fun _ => nofun

theorem FaultFree.outcome {m : Proc} (h : FaultFree m) (f : Fault) : m.outcome ≠ .fault f := fun hf =>
  h f (Proc.outcome_eq_fault.mp hf)

theorem FaultFree.andThen {m : Proc} {k : State → Proc} (hm : FaultFree m)
    (hk : ∀ u, m = .run u → FaultFree (k u)) : FaultFree (m.andThen k) := by
  cases m with
  | run u => exact hk u rfl
  | ended u => exact faultFree_ended u
  | refused r => exact faultFree_refused r
  | fault f => exact absurd rfl (hm f)

/-- Only an event that begins alive runs its body. -/
theorem FaultFree.whenAlive {s : State} {m : Proc} (h : s.fatal = false → FaultFree m) :
    FaultFree (Machine.whenAlive s m) := by
  cases hf : s.fatal with
  | true =>
    rw [whenAlive_halted hf]
    exact faultFree_refused _
  | false =>
    rw [whenAlive_alive hf]
    exact h hf

theorem memWrite_faultFree {b : Buffer} {p : Port} {i : Nat} {vs : List Byte} {s : State}
    (h : i + vs.length ≤ s.params.capacity b) : FaultFree (memWrite b p i vs s) := by
  rw [memWrite_inRange h]
  exact faultFree_run _

/-- An event that completes in every state that is alive. -/
theorem faultFree_of_total {s : State} {i : Instr} (hi : i ≠ .reset)
    (h : s.fatal = false → ∃ t, exec i s = .next t ∧ Effect s i t) (f : Fault) : exec i s ≠ .fault f := by
  cases hf : s.fatal with
  | true =>
    rw [exec_halted hf hi]
    nofun
  | false =>
    obtain ⟨t, ht, -⟩ := h hf
    rw [ht]
    nofun

theorem drain_faultFree {p : Port} {s : State} (hr : RingInRange s p) : FaultFree (drain p s) := by
  obtain ⟨t, ht, -⟩ := drain_total hr
  rw [ht]
  exact faultFree_run t

/-! ### SETUP and its data stage -/

theorem control_faultFree {p : Port} {opcode : Byte} {u : State} (hcap : 7 ≤ u.params.ctrlBufCap) :
    FaultFree (control p opcode u) := by
  by_cases hset : opcode = 0x20
  · subst hset
    rw [control_set]
    by_cases hfail : u.draws.deinitOk.get p = false ∨ u.draws.initOk.get p = false
    · rw [setLineCodingOp_fails hcap hfail]
      exact faultFree_ended _
    · simp only [not_or, Bool.not_eq_false] at hfail
      rw [setLineCodingOp_ok hcap hfail.1 hfail.2]
      exact faultFree_run _
  · by_cases hget : opcode = 0x21
    · subst hget
      exact memWrite_faultFree (by simpa [Params.capacity] using hcap)
    · rw [control_other p hset hget]
      exact faultFree_run _

theorem RequestHandler.faultFree {opcode : Byte} {p : Port} {handler : State → Proc}
    (hh : RequestHandler opcode p handler) {u : State} (hcap : 7 ≤ u.params.ctrlBufCap) : FaultFree (handler u) := by
  cases hh with
  | control => exact control_faultFree hcap
  | noEffect => exact faultFree_run _

theorem ControlEffect.params {p : Port} {opcode : Byte} {u v : State} (h : ControlEffect p opcode u v) :
    v.params = u.params := by
  cases h <;> simp

theorem RequestBody.faultFree {i : Instr} {pkt : SetupPacket} {p : Port} {body : State → Proc}
    (hb : RequestBody i pkt p body) {u : State} (hcap : 7 ≤ u.params.ctrlBufCap) : FaultFree (body u) := by
  cases hb with
  | noData _ _ hh => exact hh.faultFree hcap
  | dataIn _ _ hh =>
    unfold classIn
    split
    case isTrue hlen =>
      refine (hh.faultFree hcap).andThen fun v hv => ?_
      have hrange : 0 + pkt.wLength.toNat ≤ v.params.capacity .ctrlBuf := by
        rw [(hh.run hv).params]
        simpa [Params.capacity] using hlen
      rw [memRead_inRange hrange]
      exact faultFree_run _
    case isFalse => exact faultFree_refused _
  | dataOut =>
    rw [classOut_eq]
    split
    · exact faultFree_run _
    · exact faultFree_refused _
  | getInterface | other => exact faultFree_run _

theorem request_faultFree {i : Instr} {pkt : SetupPacket} {s : State} (hpkt : setupPacket i = some pkt)
    (hv : s.params.Valid) (f : Fault) : exec i s ≠ .fault f := by
  obtain ⟨body, hexec, hbody⟩ := isRequest_of_setupPacket hpkt
  rw [hexec]
  refine FaultFree.outcome (.whenAlive fun _ => ?_) f
  dsimp only
  split
  · next p _ => exact (hbody p).faultFree hv.2.1
  · exact faultFree_ended _

theorem processPending_faultFree {p : Port} {u : State} (hcap : 7 ≤ u.params.ctrlBufCap) :
    FaultFree (processPending p u) := by
  unfold processPending
  split
  · exact (control_faultFree hcap).andThen fun _ _ => faultFree_run _
  · exact faultFree_run _

/-! ### Every event -/

section Events

variable {s : State} (hinv : Invariant s)

include hinv

theorem ctrlDataComplete_faultFree (data : List Byte) (f : Fault) : exec (.ctrlDataComplete data) s ≠ .fault f := by
  refine FaultFree.outcome (.whenAlive fun hf => ?_) f
  split
  case h_1 a harmed =>
    split
    case isTrue hlen =>
      have hrange : 0 + data.length ≤ s.params.capacity .ctrlBuf := by
        simpa [Params.capacity, hlen] using ((hinv.live hf).armedRange a harmed).2
      rw [memWrite_inRange hrange]
      exact processPending_faultFree hinv.params.2.1
    case isFalse => exact faultFree_refused _
  case h_2 => exact faultFree_refused _

theorem uartRxByte_faultFree (c : Port) (b : Byte) (f : Fault) : exec (.uartRxByte c b) s ≠ .fault f := by
  refine FaultFree.outcome (.whenAlive fun hf => ?_) f
  split
  case isTrue =>
    obtain ⟨hpos, hcap, -⟩ := (hinv.live hf).ringRegisters c
    rw [dmaStore_eq ⟨hpos, hcap⟩]
    exact faultFree_run _
  case isFalse => exact faultFree_run _

theorem uartTxByte_faultFree (c : Port) (f : Fault) : exec (.uartTxByte c) s ≠ .fault f := by
  refine FaultFree.outcome (.whenAlive fun hf => ?_) f
  dsimp only
  split
  case isFalse => exact faultFree_refused _
  case isTrue =>
    split
    case isFalse => exact faultFree_refused _
    case isTrue hleft =>
      have hrange : (s.chan c).uartTxPos < s.params.capacity .rxBuf :=
        hleft.trans_le ((hinv.live hf).lineRange c).2
      rw [if_pos hrange]
      exact faultFree_run _

theorem schedRun_faultFree (f : Fault) : exec .schedRun s ≠ .fault f := by
  refine FaultFree.outcome (.whenAlive fun hf => ?_) f
  split
  case isFalse => exact faultFree_refused _
  case isTrue =>
    dsimp only
    split
    case isFalse => exact faultFree_run _
    case isTrue =>
      have hring (p : Port) : RingInRange (setTick false s) p := (hinv.live hf).ringRegisters p
      refine (drain_faultFree (hring .p0)).andThen fun u hu => drain_faultFree ?_
      have hdrained := (drain_run hu).2.drained (hring .p0)
      exact (RingInRange.congr hdrained.other.2.1 hdrained.env.1).mpr (hring .p1)

end Events

theorem dataOutComplete_faultFree (s : State) (ep : Byte) (data : List Byte) (f : Fault) :
    exec (.dataOutComplete ep data) s ≠ .fault f := by
  refine FaultFree.outcome (.whenAlive fun _ => ?_) f
  split
  case h_1 => exact faultFree_refused _
  case h_2 =>
    split
    case isFalse => exact faultFree_refused _
    case isTrue =>
      split
      case isFalse => exact faultFree_refused _
      case isTrue hlen =>
        rw [storePacket_eq hlen]
        exact faultFree_run _

/-- From the invariant no event faults. -/
theorem exec_faultFree {s : State} (hinv : Invariant s) (i : Instr) (f : Fault) : exec i s ≠ .fault f := by
  cases hpkt : setupPacket i with
  | some pkt => exact request_faultFree hpkt hinv.params f
  | none =>
    cases i with
    | reset => exact (faultFree_run _).outcome f
    | configure => exact faultFree_of_total (by simp) configure_total f
    | deconfigure => exact faultFree_of_total (by simp) deconfigure_total f
    | ctrlDataComplete data => exact ctrlDataComplete_faultFree hinv data f
    | dataInComplete ep =>
      refine FaultFree.outcome (.whenAlive fun _ => ?_) f
      split
      · exact faultFree_run _
      · exact faultFree_run _
    | dataOutComplete ep data => exact dataOutComplete_faultFree s ep data f
    | uartRxByte c b => exact uartRxByte_faultFree hinv c b f
    | uartTxByte c => exact uartTxByte_faultFree hinv c f
    | uartTxComplete c =>
      refine FaultFree.outcome (.whenAlive fun _ => ?_) f
      dsimp only
      split
      · split
        · exact faultFree_run _
        · exact faultFree_refused _
      · exact faultFree_refused _
    | uartError c kind =>
      refine FaultFree.outcome (.whenAlive fun _ => ?_) f
      split
      · exact faultFree_run _
      · exact faultFree_run _
      · exact faultFree_refused _
    | timerTick => exact FaultFree.outcome (.whenAlive fun _ => faultFree_run _) f
    | schedRun => exact schedRun_faultFree hinv f
    | setup | pathClassNodata | pathClassIn | pathClassOut | pathStdGetInterface | pathOther
    | sendEncapsulatedCommand | getEncapsulatedResponse | setCommFeature | getCommFeature | clearCommFeature
    | setLineCoding | getLineCoding | setControlLineState | sendBreak | classUnknown => cases hpkt

end Sys2Proof.Machine

namespace Sys2Proof.Proofs

open Sys2Proof.Machine

/-- Settles O11: no event faults under the invariant, and the fetch keeps it. -/
theorem invariantExcludesFaults : Obligations.InvariantExcludesFaults := by
  intro s hinv f h
  cases hin : s.inbox with
  | nil =>
    rw [step_idle hin] at h
    cases h
  | cons d rest =>
    cases hd : decode d.record with
    | error e =>
      rw [step_undecodable hin hd] at h
      cases h
    | ok i =>
      rw [step_cons hin hd] at h
      exact exec_faultFree (hinv.fetched rest d.draws) i f h

end Sys2Proof.Proofs
end

section
/-! The control-request machine (R140) and the flags (R41): what each state of `Effect` sets and clears. -/

namespace Sys2Proof.Machine

/-! ### The control-request machine -/

theorem ctrlState_eq_idle {s : State} {p : Port} : ctrlState s p = .idle ↔ (s.port p).pendingCommand = none := by
  unfold ctrlState
  split <;> simp_all

theorem ctrlState_eq_awaitingData {s : State} {p : Port} :
    ctrlState s p = .awaitingData ↔ (s.port p).pendingCommand ≠ none := by
  rw [← not_iff_not, not_not, ← ctrlState_eq_idle]
  cases ctrlState s p <;> simp

theorem pendingCommand_initial : PortRegs.initial.pendingCommand = none := rfl

section Control

variable {s t : State} {i : Instr} {p : Port}

/-- A port begins to wait only by a SETUP routed to it that arms its data stage. -/
theorem Effect.pendingCommand_set (h : Effect s i t) (hs : (s.port p).pendingCommand = none)
    (ht : (t.port p).pendingCommand ≠ none) :
    ∃ pkt, setupPacket i = some pkt ∧ (i.wf = true → OnPathOut pkt) ∧ routeIface s (ifaceOf pkt.wIndex) = some p ∧
      t.ctrlRxArmed = some { port := p, length := pkt.wLength.toNat } := by
  cases h with
  | @requestArmed _ pkt q hpkt hroute hclass hdir h0 =>
    by_cases hpq : p = q
    · subst hpq
      exact ⟨pkt, hpkt, fun hwf => ⟨hclass, hdir, h0 hwf⟩, hroute, by simp⟩
    · simp [hpq, hs] at ht
  | schedDrained _ _ h => exact absurd ((h.pair p).pendingCommand.trans hs) ht
  | _ =>
    refine absurd ?_ ht
    simp [State.modPort_port, apply_ite PortRegs.pendingCommand, hs, PortRegs.initial]

/-- A SETUP on path P3 leaves the port it is routed to waiting for its command. -/
theorem Effect.pendingCommand_pathOut {pkt : SetupPacket} (h : Effect s i t) (hwf : i.wf = true)
    (hpkt : setupPacket i = some pkt) (hout : OnPathOut pkt) (hroute : routeIface s (ifaceOf pkt.wIndex) = some p) :
    (t.port p).pendingCommand = some { opcode := pkt.bRequest, length := pkt.wLength } := by
  cases h with
  | requestDropped hpkt' hroute' =>
    cases hpkt'.symm.trans hpkt
    cases hroute'.symm.trans hroute
  | requestKept _ hpkt' _ hpath | requestReadBack _ hpkt' _ hpath | requestSet _ hpkt' _ hpath
  | requestHalted hpkt' _ hpath =>
    cases hpkt'.symm.trans hpkt
    exact absurd hout (hpath hwf)
  | requestArmed hpkt' hroute' =>
    cases hpkt'.symm.trans hpkt
    cases hroute'.symm.trans hroute
    simp
  | _ => cases hpkt

/-- A port stops waiting only by the data stage armed for it or by a lifecycle event. -/
theorem Effect.pendingCommand_cleared (h : Effect s i t) (hs : (s.port p).pendingCommand ≠ none)
    (ht : (t.port p).pendingCommand = none) :
    (∃ data n, i = .ctrlDataComplete data ∧ s.ctrlRxArmed = some { port := p, length := n }) ∨
      lifecycle i = true := by
  cases h with
  | reset | configureIgnored | configureNoMemory | configureHaltedFirst | configureHaltedSecond | configured
  | deconfigureIgnored | deconfigureHaltedFirst | deconfigureHaltedSecond | deconfigured => exact .inr rfl
  | @dataStageKept data q _ harmed | @dataStageReadBack data q _ harmed | @dataStageSet data q _ harmed =>
    by_cases hpq : p = q
    · subst hpq
      exact .inl ⟨data, _, rfl, harmed⟩
    · simp [hpq, hs] at ht
  | @requestArmed _ _ q =>
    by_cases hpq : p = q
    · simp [hpq] at ht
    · simp [hpq, hs] at ht
  | schedDrained _ _ h => exact absurd ((h.pair p).pendingCommand.symm.trans ht) hs
  | _ =>
    refine absurd ?_ hs
    simpa [State.modPort_port, apply_ite PortRegs.pendingCommand] using ht

/-- The data stage armed for a port ends its wait, unless it halts the block. -/
theorem Effect.pendingCommand_dataStage {data : List Byte} {n : Nat} (h : Effect s (.ctrlDataComplete data) t)
    (harmed : s.ctrlRxArmed = some { port := p, length := n }) (hf : t.fatal = false) :
    (t.port p).pendingCommand = none := by
  cases h with
  | dataStageUnclaimed harmed' _ hpend =>
    cases harmed'.symm.trans harmed
    simpa using hpend
  | dataStageKept harmed' | dataStageReadBack harmed' | dataStageSet harmed' =>
    cases harmed'.symm.trans harmed
    simp
  | dataStageHalted => cases hf
  | requestDropped hpkt | requestKept _ hpkt | requestReadBack _ hpkt | requestSet _ hpkt | requestHalted hpkt
  | requestArmed hpkt => cases hpkt

/-- CONFIGURE with memory creates the ports. -/
theorem Effect.pendingCommand_configure (h : Effect s .configure t) (hc : s.configured = false)
    (ha : s.draws.allocOk = true) : (t.port p).pendingCommand = none := by
  cases h with
  | configureIgnored hc' => cases hc'.symm.trans hc
  | configureNoMemory _ ha' => cases ha'.symm.trans ha
  | configured => rw [configuredState_port]; rfl
  | configureHaltedFirst | configureHaltedSecond => simp [pendingCommand_initial]
  | requestDropped hpkt | requestKept _ hpkt | requestReadBack _ hpkt | requestSet _ hpkt | requestHalted hpkt
  | requestArmed hpkt => cases hpkt

/-- DECONFIGURE that does not halt tears the ports down. -/
theorem Effect.pendingCommand_deconfigure (h : Effect s .deconfigure t) (hc : s.configured = true)
    (hf : t.fatal = false) : (t.port p).pendingCommand = none := by
  cases h with
  | deconfigureIgnored hc' => cases hc'.symm.trans hc
  | deconfigureHaltedFirst | deconfigureHaltedSecond => cases hf
  | deconfigured => simp [pendingCommand_initial]
  | requestDropped hpkt | requestKept _ hpkt | requestReadBack _ hpkt | requestSet _ hpkt | requestHalted hpkt
  | requestArmed hpkt => cases hpkt

end Control

end Sys2Proof.Machine

namespace Sys2Proof.Proofs

open Sys2Proof.Machine

/-- Settles O59: `pend_valid` is set by the arming of a data stage only, and cleared by its completion and the
lifecycle events. -/
theorem controlStateGraph : Obligations.ControlStateGraph := by
  intro i s t p h
  have heffect := effect_of_exec h
  refine ⟨fun hs ht => ?set, fun pkt hwf hpkt hout hroute => ?pathOut, fun hs ht => ?cleared, ?dataStage, ?reset,
    ?configure, ?deconfigure⟩
  case set => exact heffect.pendingCommand_set (ctrlState_eq_idle.mp hs) (ctrlState_eq_awaitingData.mp ht)
  case pathOut =>
    have hpend := heffect.pendingCommand_pathOut hwf hpkt hout hroute
    exact ⟨ctrlState_eq_awaitingData.mpr (by simp [hpend]), hpend⟩
  case cleared => exact heffect.pendingCommand_cleared (ctrlState_eq_awaitingData.mp hs) (ctrlState_eq_idle.mp ht)
  case dataStage =>
    rintro data n rfl harmed hf
    exact ctrlState_eq_idle.mpr (heffect.pendingCommand_dataStage harmed hf)
  case reset =>
    rintro rfl
    cases h
    simp [ctrlState_eq_idle, pendingCommand_initial]
  case configure =>
    rintro rfl hc ha
    exact ctrlState_eq_idle.mpr (heffect.pendingCommand_configure hc ha)
  case deconfigure =>
    rintro rfl hc hf
    exact ctrlState_eq_idle.mpr (heffect.pendingCommand_deconfigure hc hf)

end Sys2Proof.Proofs
end

section
/-! The flags of R41: one lemma for each flag and direction, read off the case analysis `Effect`. -/

namespace Sys2Proof.Machine

section Flags

variable {s t : State} {i : Instr} {c : Port}

theorem reconfigures_of_request {pkt : SetupPacket} (hpkt : setupPacket i = some pkt)
    (hroute : routeIface s (ifaceOf pkt.wIndex) = some c) (hset : SetsLineCoding pkt) : Reconfigures s i c :=
  .inl ⟨pkt, hpkt, hroute, hset⟩

theorem reconfigures_of_dataStage {data : List Byte} {n : Nat} {cmd : PendingCommand}
    (harmed : s.ctrlRxArmed = some ⟨c, n⟩) (hpend : (s.port c).pendingCommand = some cmd) (hop : cmd.opcode = 0x20) :
    Reconfigures s (.ctrlDataComplete data) c := by
  obtain ⟨opcode, length⟩ := cmd
  subst hop
  exact .inr ⟨data, n, length, rfl, harmed, hpend⟩

/-! ### `configured`, `tick_flag` and `fatal` -/

theorem Effect.configured_set (h : Effect s i t) (hs : s.configured = false) (ht : t.configured = true) :
    i = .configure ∧ Action.configResult true ∈ newActions s t := by
  cases h with
  | configured => exact ⟨rfl, by simp [newActions]⟩
  | schedDrained _ _ h => cases (h.configured.symm.trans ht).symm.trans hs
  | _ => exact absurd ht (by simp [hs])

theorem Effect.configured_cleared (h : Effect s i t) (hs : s.configured = true) (ht : t.configured = false) :
    i = .deconfigure ∨ i = .reset := by
  cases h with
  | reset => exact .inr rfl
  | deconfigured => exact .inl rfl
  | schedDrained _ _ h => cases (h.configured.symm.trans ht).symm.trans hs
  | _ => exact absurd ht (by simp [hs])

theorem Effect.tickFlag_set (h : Effect s i t) (hs : s.tickFlag = false) (ht : t.tickFlag = true) :
    i = .timerTick := by
  cases h with
  | tick => rfl
  | schedDrained _ _ h => cases h.tickFlag.symm.trans ht
  | _ => exact absurd ht (by simp [hs])

theorem Effect.tickFlag_cleared (h : Effect s i t) (hs : s.tickFlag = true) (ht : t.tickFlag = false) :
    i = .schedRun ∨ i = .reset := by
  cases h with
  | reset => exact .inr rfl
  | schedIdle | schedDrained => exact .inl rfl
  | _ => exact absurd ht (by simp [hs])

theorem Effect.fatal_cleared (h : Effect s i t) (hs : s.fatal = true) (ht : t.fatal = false) : i = .reset := by
  cases h with
  | reset => rfl
  | schedDrained _ _ h => cases (h.fatal.symm.trans ht).symm.trans hs
  | _ => exact absurd ht (by simp [hs])

/-- The halt is the last act of its step. -/
theorem haltedState_last {s u : State} (c : Port) (hout : s.out <+: u.out) (hraised : u.raised = s.raised) :
    ∃ c' before, (haltedState c u).out = s.out ++ before ++ [.fatal .peripheralInitFailure] ∧
      (haltedState c u).raised = s.raised ++ [.peripheralInitFailure c'] := by
  obtain ⟨before, hbefore⟩ := hout
  exact ⟨c, before, by simp [hbefore], by simp [hraised]⟩

/-- The block halts at a collaborator's refusal, as the step's last act (R257). -/
theorem Effect.fatal_set (h : Effect s i t) (hs : s.fatal = false) (ht : t.fatal = true) :
    (∃ c, s.draws.initOk.get c = false ∨ s.draws.deinitOk.get c = false) ∧
    ∃ c before, t.out = s.out ++ before ++ [.fatal .peripheralInitFailure] ∧
      t.raised = s.raised ++ [.peripheralInitFailure c] := by
  cases h with
  | configureHaltedFirst _ _ hfail => exact ⟨⟨.p0, .inl hfail⟩, haltedState_last .p0 (by simp) (by simp)⟩
  | configureHaltedSecond _ _ hfail => exact ⟨⟨.p1, .inl hfail⟩, haltedState_last .p1 (by simp) (by simp)⟩
  | deconfigureHaltedFirst _ hfail => exact ⟨⟨.p0, .inr hfail⟩, haltedState_last .p0 (by simp) (by simp)⟩
  | deconfigureHaltedSecond _ hfail => exact ⟨⟨.p1, .inr hfail⟩, haltedState_last .p1 (by simp) (by simp)⟩
  | @requestHalted _ _ c _ _ _ _ hfail | @dataStageHalted _ c _ _ _ _ _ hfail =>
    exact ⟨⟨c, hfail.symm⟩, haltedState_last c (by simp) (by simp)⟩
  | schedDrained _ _ h => cases (h.fatal.symm.trans ht).symm.trans hs
  | _ => exact absurd ht (by simp [hs])

/-! ### The flags of a pair -/

theorem Effect.outArmed_cleared (h : Effect s i t) (hs : (s.port c).outArmed = true)
    (ht : (t.port c).outArmed = false) :
    (∃ data, i = .dataOutComplete (s.params.epOut.get c) data) ∨ lifecycle i = true := by
  cases h with
  | reset | configureIgnored | configureNoMemory | configureHaltedFirst | configureHaltedSecond | configured
  | deconfigureIgnored | deconfigureHaltedFirst | deconfigureHaltedSecond | deconfigured => exact .inr rfl
  | @outStored ep data q hroute =>
    by_cases hq : c = q
    · subst hq
      exact .inl ⟨data, by rw [routeOut_get hroute]⟩
    · simp [hq, hs] at ht
  | schedDrained _ _ h => cases ((h.pair c).outArmed.symm.trans ht).symm.trans hs
  | _ =>
    refine absurd ht ?_
    simp [State.modPort_port, apply_ite PortRegs.outArmed, hs]

theorem Effect.dmaRunning_set (h : Effect s i t) (hs : (s.chan c).dmaRunning = false)
    (ht : (t.chan c).dmaRunning = true) :
    (i = .configure ∨ Reconfigures s i c) ∧ Action.dmaStart c ∈ newActions s t := by
  cases h with
  | configureHaltedSecond =>
    cases c with
    | p0 => exact ⟨.inl rfl, by simp [newActions]⟩
    | p1 => simp [hs] at ht
  | configured => exact ⟨.inl rfl, by cases c <;> simp [newActions]⟩
  | @requestSet _ pkt q reply hpkt hroute _ hset =>
    by_cases hq : c = q
    · subst hq
      exact ⟨.inr (reconfigures_of_request hpkt hroute hset), by simp [newActions]⟩
    · simp [hq, hs] at ht
  | @dataStageSet data q cmd harmed _ hpend hop =>
    by_cases hq : c = q
    · subst hq
      exact ⟨.inr (reconfigures_of_dataStage harmed hpend hop), by simp [newActions]⟩
    · simp [hq, hs] at ht
  | reset | deconfigured => simp [chanRegs_initial, teardownChan] at ht
  | deconfigureHaltedSecond => cases c <;> simp at ht
  | schedDrained _ _ h => simp [(h.pair c).chan, hs] at ht
  | _ =>
    refine absurd ht ?_
    simp [State.modChan_chan, apply_ite ChanRegs.dmaRunning, hs]

theorem Effect.dmaRunning_cleared (h : Effect s i t) (hs : (s.chan c).dmaRunning = true)
    (ht : (t.chan c).dmaRunning = false) : i = .deconfigure ∨ i = .reset ∨ (Reconfigures s i c ∧ t.fatal = true) := by
  cases h with
  | reset => exact .inr (.inl rfl)
  | deconfigureIgnored | deconfigureHaltedFirst | deconfigureHaltedSecond | deconfigured => exact .inl rfl
  | configureHaltedSecond | configured => cases c <;> simp [hs] at ht
  | @requestHalted _ _ q hpkt hroute _ hset =>
    by_cases hq : c = q
    · subst hq
      exact .inr (.inr ⟨reconfigures_of_request hpkt hroute hset, rfl⟩)
    · simp [hq, hs] at ht
  | @dataStageHalted _ q _ harmed _ hpend hop =>
    by_cases hq : c = q
    · subst hq
      exact .inr (.inr ⟨reconfigures_of_dataStage harmed hpend hop, rfl⟩)
    · simp [hq, hs] at ht
  | schedDrained _ _ h => simp [(h.pair c).chan, hs] at ht
  | _ =>
    refine absurd ht ?_
    simp [State.modChan_chan, apply_ite ChanRegs.dmaRunning, hs]

theorem Effect.uartTxBusy_set (h : Effect s i t) (hs : (s.chan c).uartTxBusy = false)
    (ht : (t.chan c).uartTxBusy = true) : ∃ data, i = .dataOutComplete (s.params.epOut.get c) data := by
  cases h with
  | @outStored ep data q hroute =>
    by_cases hq : c = q
    · subst hq
      exact ⟨data, by rw [routeOut_get hroute]⟩
    · simp [hq, hs] at ht
  | reset | deconfigured => simp [chanRegs_initial, teardownChan] at ht
  | configureHaltedSecond | configured | deconfigureHaltedSecond => cases c <;> simp [hs] at ht
  | schedDrained _ _ h => simp [(h.pair c).chan, hs] at ht
  | _ =>
    refine absurd ht ?_
    simp [State.modChan_chan, apply_ite ChanRegs.uartTxBusy, hs]

theorem Effect.uartTxBusy_cleared (h : Effect s i t) (hs : (s.chan c).uartTxBusy = true)
    (ht : (t.chan c).uartTxBusy = false) : i = .uartTxComplete c ∨ lifecycle i = true := by
  cases h with
  | reset | configureIgnored | configureNoMemory | configureHaltedFirst | configureHaltedSecond | configured
  | deconfigureIgnored | deconfigureHaltedFirst | deconfigureHaltedSecond | deconfigured => exact .inr rfl
  | @lineDone q =>
    by_cases hq : c = q
    · exact .inl (by rw [hq])
    · simp [hq, hs] at ht
  | @outStored _ _ q =>
    by_cases hq : c = q
    · subst hq
      simp [hs] at ht
    · simp [hq, hs] at ht
  | schedDrained _ _ h => simp [(h.pair c).chan, hs] at ht
  | _ =>
    refine absurd ht ?_
    simp [State.modChan_chan, apply_ite ChanRegs.uartTxBusy, hs]

/-! ### The sticky error flags -/

/-- A sticky flag goes from `x` to `y` at event `i`: it stays, or `setter` sets it, or RESET clears it. -/
def StickyStep (setter i : Instr) (x y : Bool) : Prop := y = x ∨ (i = setter ∧ y = true) ∨ (i = .reset ∧ y = false)

theorem StickyStep.setter_of_set {setter : Instr} {x y : Bool} (h : StickyStep setter i x y) (hx : x = false)
    (hy : y = true) : i = setter := by
  subst hx hy
  simpa [StickyStep] using h

theorem StickyStep.reset_of_cleared {setter : Instr} {x y : Bool} (h : StickyStep setter i x y) (hx : x = true)
    (hy : y = false) : i = .reset := by
  subst hx hy
  simpa [StickyStep] using h

theorem Effect.errorFlags (h : Effect s i t) (c : Port) :
    StickyStep (.uartError c 0x01) i (s.chan c).errOverrun (t.chan c).errOverrun ∧
      StickyStep (.uartError c 0x02) i (s.chan c).errFraming (t.chan c).errFraming := by
  unfold StickyStep
  cases h with
  | reset => simp [chanRegs_initial]
  | @overrun q | @framing q =>
    by_cases hq : c = q
    · subst hq
      simp
    · simp [hq]
  | schedDrained _ _ h => simp [(h.pair c).chan]
  | configureHaltedSecond | configured | deconfigureHaltedSecond | deconfigured =>
    cases c <;> simp [teardownChan]
  | _ => simp [State.modChan_chan, apply_ite ChanRegs.errOverrun, apply_ite ChanRegs.errFraming]

end Flags

end Sys2Proof.Machine

namespace Sys2Proof.Proofs

open Sys2Proof.Machine

/-- Settles O58: one lemma for each flag and direction. -/
theorem flagsChangeOnlyAsListed : Obligations.FlagsChangeOnlyAsListed := by
  intro i s t h
  have heffect := effect_of_exec h
  refine ⟨heffect.configured_set, heffect.configured_cleared, heffect.tickFlag_set, heffect.tickFlag_cleared,
    heffect.fatal_cleared, heffect.fatal_set, fun p => heffect.outArmed_cleared, fun c => heffect.dmaRunning_set,
    fun c => heffect.dmaRunning_cleared, fun c => heffect.uartTxBusy_set, fun c => heffect.uartTxBusy_cleared,
    fun c => (heffect.errorFlags c).1.setter_of_set, fun c => (heffect.errorFlags c).2.setter_of_set,
    fun c => (heffect.errorFlags c).1.reset_of_cleared, fun c => (heffect.errorFlags c).2.reset_of_cleared⟩

end Sys2Proof.Proofs
end

section
/-! Runs of events: how the actions of a run are those of its steps, and the exactness of the host-to-line stream
(R169). -/

namespace Sys2Proof.Machine

/-! ### Runs -/

theorem runEvents_cons {d : Draws} {i : Instr} {rest : List Event} {s t : State}
    (h : runEvents ((d, i) :: rest) s = some t) :
    ∃ u, exec i { s with draws := d } = .next u ∧ runEvents rest u = some t := by
  unfold runEvents at h
  split at h
  · next u hu => exact ⟨u, hu, h⟩
  · cases h

theorem KeepsHistory.of_draws {s t : State} {d : Draws} (h : KeepsHistory { s with draws := d } t) :
    KeepsHistory s t := ⟨h.params, h.inbox, h.out, h.raised⟩

theorem KeepsHistory.trans {s u t : State} (h : KeepsHistory s u) (h' : KeepsHistory u t) : KeepsHistory s t where
  params := h'.params.trans h.params
  inbox := h'.inbox.trans h.inbox
  out := h.out.trans h'.out
  raised := h.raised.trans h'.raised

theorem keepsHistory_of_runEvents {events : List Event} {s t : State} (h : runEvents events s = some t) :
    KeepsHistory s t := by
  induction events generalizing s with
  | nil =>
    cases h
    exact ⟨rfl, rfl, List.prefix_rfl, List.prefix_rfl⟩
  | cons e rest ih =>
    obtain ⟨u, hu, hrest⟩ := runEvents_cons h
    exact (effect_of_exec hu).keepsHistory.of_draws.trans (ih hrest)

theorem newActions_self (s : State) : newActions s s = [] := List.drop_length

theorem newActions_append {s u t : State} (h : KeepsHistory s u) (h' : KeepsHistory u t) :
    newActions s t = newActions s u ++ newActions u t := by
  obtain ⟨first, hfirst⟩ := h.out
  obtain ⟨second, hsecond⟩ := h'.out
  have hwhole : newActions s t = first ++ second := by
    rw [newActions, ← hsecond, ← hfirst, List.append_assoc, List.drop_left]
  rw [hwhole, newActions, newActions, ← hsecond, ← hfirst, List.drop_left, List.drop_left]

/-! ### The bytes of packets and of the line -/

theorem packetBytes_cons (ep : Byte) (e : Event) (rest : List Event) :
    packetBytes ep (e :: rest) = packetBytes ep [e] ++ packetBytes ep rest := by
  obtain ⟨d, i⟩ := e
  cases i with
  | dataOutComplete ep' data => by_cases h : ep' = ep <;> simp [packetBytes, h]
  | _ => rfl

theorem packetBytes_other {ep : Byte} {i : Instr} (d : Draws) (h : ∀ data, i ≠ .dataOutComplete ep data) :
    packetBytes ep [(d, i)] = [] := by
  cases i with
  | dataOutComplete ep' data =>
    have hne : ep' ≠ ep := fun e => h data (by rw [e])
    simp [packetBytes, hne]
  | _ => rfl

theorem lineBytes_append (c : Port) (as bs : List Action) :
    lineBytes c (as ++ bs) = lineBytes c as ++ lineBytes c bs := by
  induction as with
  | nil => rfl
  | cons a rest ih =>
    cases a with
    | lineByte c' b cfg => by_cases h : c' = c <;> simp [lineBytes, h, ih]
    | _ => exact ih

theorem lineBytes_eq_nil {c : Port} {as : List Action} (h : ∀ b cfg, Action.lineByte c b cfg ∉ as) :
    lineBytes c as = [] := by
  induction as with
  | nil => rfl
  | cons a rest ih =>
    have hrest := ih fun b cfg hmem => h b cfg (List.mem_cons_of_mem a hmem)
    cases a with
    | lineByte c' b cfg =>
      have hne : c' ≠ c := fun e => h b cfg (by simp [e])
      simp [lineBytes, hne, hrest]
    | _ => exact hrest

/-! ### One step of the line -/

/-- Invariant (I-b) for one channel: while the line sends, its endpoint is not armed. -/
def LineExclusive (s : State) (c : Port) : Prop := (s.chan c).uartTxBusy = true → (s.port c).outArmed = false

section Line

variable {s t : State} {i : Instr} {c : Port}

theorem unsentBytes_idle (h : (s.chan c).uartTxBusy = false) : unsentBytes s c = [] := by simp [unsentBytes, h]

theorem unsentBytes_congr (hchan : (t.chan c).uartTxBusy = (s.chan c).uartTxBusy ∧
      (t.chan c).uartTxLen = (s.chan c).uartTxLen ∧ (t.chan c).uartTxPos = (s.chan c).uartTxPos)
    (hbytes : ∀ k, t.byteAt .rxBuf c k = s.byteAt .rxBuf c k) : unsentBytes t c = unsentBytes s c := by
  obtain ⟨hbusy, hlen, hpos⟩ := hchan
  simp only [unsentBytes, hbusy, hlen, hpos, State.bytesAt_congr fun k _ => hbytes _]

/-- A packet taken by an idle line is all still to leave. -/
theorem unsentBytes_packetState (hbusy : (s.chan c).uartTxBusy = false) (data : List Byte) :
    unsentBytes (packetState s c data) c = data := by
  have hstored : (packetState s c data).bytesAt .rxBuf c 0 data.length = data :=
    s.store_bytesAt_same .rxBuf c 0 data
  by_cases hstart : 0 < data.length ∨ s.params.zlpOutRearm = true
  · have hsends : ((packetState s c data).chan c).uartTxBusy = true := by simp [hstart]
    rw [unsentBytes, if_pos hsends]
    simpa using hstored
  · have hempty : data = [] := List.eq_nil_of_length_eq_zero (by omega)
    have hstays : ((packetState s c data).chan c).uartTxBusy = false := by simp [hstart, hbusy]
    rw [unsentBytes_idle hstays, hempty]

/-- The byte at the position, and the bytes still to leave behind it. -/
theorem unsentBytes_lineSent (hbusy : (s.chan c).uartTxBusy = true)
    (hleft : (s.chan c).uartTxPos < (s.chan c).uartTxLen) :
    unsentBytes s c = s.byteAt .rxBuf c (s.chan c).uartTxPos :: unsentBytes (lineSentState s c) c := by
  have hcount : (s.chan c).uartTxLen - (s.chan c).uartTxPos =
      1 + ((s.chan c).uartTxLen - ((s.chan c).uartTxPos + 1)) := by omega
  have hsends : ((lineSentState s c).chan c).uartTxBusy = true := by simp [hbusy]
  rw [unsentBytes, if_pos hbusy, hcount, State.bytesAt_add, unsentBytes, if_pos hsends]
  simp [State.bytesAt]

theorem unsentBytes_done (hdone : (s.chan c).uartTxPos = (s.chan c).uartTxLen) : unsentBytes s c = [] := by
  simp [unsentBytes, hdone, State.bytesAt]

/-- The line registers of a channel change only by its own events, its packets and the lifecycle events. -/
theorem Effect.lineRegs (h : Effect s i t) (hl : lifecycle i = false)
    (hout : ∀ data, i ≠ .dataOutComplete (s.params.epOut.get c) data) (hbyte : i ≠ .uartTxByte c)
    (hdone : i ≠ .uartTxComplete c) :
    (t.chan c).uartTxBusy = (s.chan c).uartTxBusy ∧ (t.chan c).uartTxLen = (s.chan c).uartTxLen ∧
      (t.chan c).uartTxPos = (s.chan c).uartTxPos := by
  cases h with
  | reset | configureIgnored | configureNoMemory | configureHaltedFirst | configureHaltedSecond | configured
  | deconfigureIgnored | deconfigureHaltedFirst | deconfigureHaltedSecond | deconfigured => cases hl
  | @outStored ep data q hroute =>
    have hne : c ≠ q := by
      rintro rfl
      exact hout data (by rw [routeOut_get hroute])
    simp [hne]
  | @lineSent q =>
    have hne : c ≠ q := fun e => hbyte (by rw [e])
    simp [hne]
  | @lineDone q =>
    have hne : c ≠ q := fun e => hdone (by rw [e])
    simp [hne]
  | schedDrained _ _ h => simp [(h.pair c).chan]
  | _ =>
    simp [State.modChan_chan, apply_ite ChanRegs.uartTxBusy, apply_ite ChanRegs.uartTxLen,
      apply_ite ChanRegs.uartTxPos]

/-- Only the events of the line move bytes on it. -/
theorem Effect.line_other (h : Effect s i t) (hl : lifecycle i = false)
    (hout : ∀ data, i ≠ .dataOutComplete (s.params.epOut.get c) data) (hbyte : i ≠ .uartTxByte c)
    (hdone : i ≠ .uartTxComplete c) :
    unsentBytes t c = unsentBytes s c ∧ lineBytes c (newActions s t) = [] := by
  have hreset : i ≠ .reset := by rintro rfl; cases hl
  refine ⟨unsentBytes_congr (h.lineRegs hl hout hbyte hdone) fun k => ?_,
    lineBytes_eq_nil fun b cfg hm => hbyte (h.actionOrigin _ hm)⟩
  by_contra hne
  obtain ⟨data, hdata, -⟩ := h.rxBuf_writer hreset hne
  exact hout data hdata

theorem Effect.lineExclusive (h : Effect s i t) (hl : lifecycle i = false) (hex : LineExclusive s c) :
    LineExclusive t c := by
  intro hbusy
  cases h with
  | reset | configureIgnored | configureNoMemory | configureHaltedFirst | configureHaltedSecond | configured
  | deconfigureIgnored | deconfigureHaltedFirst | deconfigureHaltedSecond | deconfigured => cases hl
  | @outStored _ _ q =>
    by_cases hq : c = q
    · simp [hq]
    · simpa [hq] using hex (by simpa [hq] using hbusy)
  | @lineDone q =>
    by_cases hq : c = q
    · simp [hq] at hbusy
    · simpa [hq] using hex (by simpa [hq] using hbusy)
  | schedDrained _ _ h =>
    rw [(h.pair c).outArmed]
    exact hex (by simpa [(h.pair c).chan] using hbusy)
  | _ =>
    have hs : (s.chan c).uartTxBusy = true := by
      simpa [State.modChan_chan, apply_ite ChanRegs.uartTxBusy] using hbusy
    simpa [State.modPort_port, apply_ite PortRegs.outArmed] using hex hs

/-- A packet comes only to an idle line, which then has all of it still to send. -/
theorem Effect.lineStream_packet {data : List Byte} (h : Effect s (.dataOutComplete (s.params.epOut.get c) data) t)
    (hv : s.params.Valid) (hex : LineExclusive s c) (d : Draws) :
    lineBytes c (newActions s t) ++ unsentBytes t c =
      unsentBytes s c ++
        packetBytes (s.params.epOut.get c) [(d, .dataOutComplete (s.params.epOut.get c) data)] := by
  cases h with
  | @outStored _ _ q hroute harmed =>
    obtain rfl : c = q := Two.get_injective (params_distinct hv).2.2 (routeOut_get hroute)
    have hidle : (s.chan c).uartTxBusy = false := by
      by_contra hbusy
      simp [hex (by simpa using hbusy)] at harmed
    rw [unsentBytes_packetState hidle, unsentBytes_idle hidle]
    simp [newActions, lineBytes, packetBytes]
  | requestDropped hpkt | requestKept _ hpkt | requestReadBack _ hpkt | requestSet _ hpkt | requestHalted hpkt
  | requestArmed hpkt => cases hpkt

/-- The line sends the byte at its position. -/
theorem Effect.lineStream_byte (h : Effect s (.uartTxByte c) t) :
    lineBytes c (newActions s t) ++ unsentBytes t c = unsentBytes s c := by
  cases h with
  | lineSent hbusy hleft =>
    rw [unsentBytes_lineSent hbusy hleft]
    simp [newActions, lineBytes]
  | requestDropped hpkt | requestKept _ hpkt | requestReadBack _ hpkt | requestSet _ hpkt | requestHalted hpkt
  | requestArmed hpkt => cases hpkt

/-- The line completes a packet when every byte of it has left. -/
theorem Effect.lineStream_done (h : Effect s (.uartTxComplete c) t) :
    lineBytes c (newActions s t) ++ unsentBytes t c = unsentBytes s c := by
  cases h with
  | lineDone _ hdone =>
    rw [unsentBytes_done hdone, unsentBytes_idle (by simp)]
    simp [newActions, lineBytes]
  | requestDropped hpkt | requestKept _ hpkt | requestReadBack _ hpkt | requestSet _ hpkt | requestHalted hpkt
  | requestArmed hpkt => cases hpkt

/-- One step of the line: what left and what is still to leave, against what was still to leave and what came. -/
theorem Effect.lineStream (h : Effect s i t) (hl : lifecycle i = false) (hv : s.params.Valid)
    (hex : LineExclusive s c) (d : Draws) :
    lineBytes c (newActions s t) ++ unsentBytes t c =
      unsentBytes s c ++ packetBytes (s.params.epOut.get c) [(d, i)] := by
  by_cases hout : ∃ data, i = .dataOutComplete (s.params.epOut.get c) data
  · obtain ⟨data, rfl⟩ := hout
    exact h.lineStream_packet hv hex d
  · simp only [not_exists] at hout
    rw [packetBytes_other d hout, List.append_nil]
    by_cases hbyte : i = .uartTxByte c
    · subst hbyte
      exact h.lineStream_byte
    · by_cases hdone : i = .uartTxComplete c
      · subst hdone
        exact h.lineStream_done
      · obtain ⟨hunsent, hline⟩ := h.line_other hl hout hbyte hdone
        rw [hunsent, hline, List.nil_append]

end Line

end Sys2Proof.Machine

namespace Sys2Proof.Proofs

open Sys2Proof.Machine

theorem lineStream_of_runEvents {events : List Event} {s t : State} {c : Port} (hv : s.params.Valid)
    (hex : LineExclusive s c) (hl : ∀ e ∈ events, lifecycle e.2 = false) (h : runEvents events s = some t) :
    lineBytes c (newActions s t) ++ unsentBytes t c =
      unsentBytes s c ++ packetBytes (s.params.epOut.get c) events := by
  induction events generalizing s with
  | nil =>
    cases h
    simp [newActions_self, lineBytes, packetBytes]
  | cons e rest ih =>
    obtain ⟨d, i⟩ := e
    obtain ⟨u, hu, hrest⟩ := runEvents_cons h
    have heffect := effect_of_exec hu
    have hli : lifecycle i = false := hl _ List.mem_cons_self
    have hkeeps := heffect.keepsHistory.of_draws
    have hstep : lineBytes c (newActions s u) ++ unsentBytes u c =
        unsentBytes s c ++ packetBytes (s.params.epOut.get c) [(d, i)] := heffect.lineStream hli hv hex d
    have hlater := ih (hkeeps.params ▸ hv) (heffect.lineExclusive hli hex)
      (fun e he => hl e (List.mem_cons_of_mem _ he)) hrest
    rw [hkeeps.params] at hlater
    rw [newActions_append hkeeps (keepsHistory_of_runEvents hrest), lineBytes_append, packetBytes_cons,
      List.append_assoc, hlater, ← List.append_assoc, hstep, List.append_assoc]

/-- Settles O48: with the line idle nothing is still to leave at the start, and each step of the run keeps the
balance. -/
theorem outStreamIsExact : Obligations.OutStreamIsExact := by
  intro events s t c hv hidle hl h
  have hex : LineExclusive s c := fun hbusy => by simp [hidle] at hbusy
  rw [lineStream_of_runEvents hv hex hl h, unsentBytes_idle hidle, List.nil_append]

end Sys2Proof.Proofs
end

section
/-! The drain over a run (R205): what is unread is the newest of the bytes that came since the last drain, and a drain
that came in time transmits all of them. -/

namespace Sys2Proof.Machine

/-! ### The bytes received and transmitted -/

theorem receivedBytes_cons (p : Port) (e : Event) (rest : List Event) :
    receivedBytes p (e :: rest) = receivedBytes p [e] ++ receivedBytes p rest := by
  obtain ⟨d, i⟩ := e
  cases i with
  | uartRxByte c b => by_cases h : c = p <;> simp [receivedBytes, h]
  | _ => rfl

theorem transmittedBytes_append (ep : Byte) (as bs : List Action) :
    transmittedBytes ep (as ++ bs) = transmittedBytes ep as ++ transmittedBytes ep bs := by
  induction as with
  | nil => rfl
  | cons a rest ih =>
    cases a with
    | usbTransmit e bytes => by_cases h : e = ep <;> simp [transmittedBytes, h, ih]
    | _ => exact ih

theorem transmittedBytes_eq_nil {ep : Byte} {as : List Action} (h : ∀ bytes, Action.usbTransmit ep bytes ∉ as) :
    transmittedBytes ep as = [] := by
  induction as with
  | nil => rfl
  | cons a rest ih =>
    have hrest := ih fun bytes hmem => h bytes (List.mem_cons_of_mem a hmem)
    cases a with
    | usbTransmit e bytes =>
      have hne : e ≠ ep := fun he => h bytes (by simp [he])
      simp [transmittedBytes, hne, hrest]
    | _ => exact hrest

/-! ### The bytes that came since the last drain -/

/-- The bytes of line `p` that came since the last SCHED_RUN, after the event `i`. -/
def pendingStep (p : Port) (i : Instr) (pending : List Byte) : List Byte :=
  match i with
  | .schedRun => []
  | .uartRxByte c b => if c = p then pending ++ [b] else pending
  | _ => pending

/-- The same after a run. -/
def pendingAfter (p : Port) (events : List Event) (pending : List Byte) : List Byte :=
  events.foldl (fun acc e => pendingStep p e.2 acc) pending

/-- What a run of events with no byte of line `p` leaves of nothing. -/
theorem pendingAfter_nil {p : Port} {events : List Event} (h : receivedBytes p events = []) :
    pendingAfter p events [] = [] := by
  induction events with
  | nil => rfl
  | cons e rest ih =>
    rw [receivedBytes_cons, List.append_eq_nil_iff] at h
    obtain ⟨d, i⟩ := e
    have hstep : pendingStep p i [] = [] := by
      cases i with
      | uartRxByte c b =>
        by_cases hc : c = p
        · simp [receivedBytes, hc] at h
        · simp [pendingStep, hc]
      | _ => rfl
    rw [pendingAfter, List.foldl_cons, hstep]
    exact ih h.2

theorem pendingAfter_schedRun {p : Port} {after : List Event} (h : receivedBytes p after = []) (before : List Event)
    (d : Draws) (pending : List Byte) : pendingAfter p (before ++ (d, .schedRun) :: after) pending = [] := by
  rw [pendingAfter, List.foldl_append, List.foldl_cons]
  exact pendingAfter_nil h

/-- The event is neither a drain nor a byte of line `p`. -/
structure Neutral (p : Port) (i : Instr) : Prop where
  not_schedRun : i ≠ .schedRun
  not_rxByte : ∀ b, i ≠ .uartRxByte p b

theorem Neutral.pendingStep {p : Port} {i : Instr} (h : Neutral p i) (pending : List Byte) :
    Machine.pendingStep p i pending = pending := by
  cases i with
  | schedRun => exact absurd rfl h.not_schedRun
  | uartRxByte c b => exact if_neg fun hc => h.not_rxByte b (by rw [hc])
  | _ => rfl

theorem Neutral.receivedBytes {p : Port} {i : Instr} (h : Neutral p i) (d : Draws) :
    Machine.receivedBytes p [(d, i)] = [] := by
  cases i with
  | uartRxByte c b => exact if_neg fun hc => h.not_rxByte b (by rw [hc])
  | _ => rfl

/-! ### One step of the ring -/

/-- What is unread in the ring of `p` is the newest of `pending`, while the block is configured and the channel
receives. -/
structure RingHolds (s : State) (p : Port) (pending : List Byte) : Prop where
  configured : s.configured = true
  running : (s.chan p).dmaRunning = true
  ring : RingInRange s p
  unread : unreadBytes s p = newestBytes s.params.ringCap pending

section Ring

variable {s t : State} {i : Instr} {p : Port} {pending : List Byte}

/-- A step that is no drain and no byte of the line keeps the ring of `p`, unless it reconfigures the channel. -/
theorem Effect.ringRegs (h : Effect s i t) (hl : lifecycle i = false) (hi : Neutral p i)
    (hd : Action.uartDeinit p ∉ newActions s t) :
    (t.chan p).dmaRunning = (s.chan p).dmaRunning ∧ (t.chan p).rxRemaining = (s.chan p).rxRemaining ∧
      (t.chan p).rxReadCursor = (s.chan p).rxReadCursor := by
  cases h with
  | reset | configureIgnored | configureNoMemory | configureHaltedFirst | configureHaltedSecond | configured
  | deconfigureIgnored | deconfigureHaltedFirst | deconfigureHaltedSecond | deconfigured => cases hl
  | @requestSet _ _ q | @dataStageSet _ q | @requestHalted _ _ q | @dataStageHalted _ q =>
    have hne : p ≠ q := by
      rintro rfl
      exact hd (by simp [newActions, failedReconfigurationActions])
    simp [hne]
  | @rxStored c b =>
    have hne : p ≠ c := by
      rintro rfl
      exact hi.not_rxByte b rfl
    simp [hne]
  | schedDrained => exact absurd rfl hi.not_schedRun
  | _ =>
    simp [State.modChan_chan, apply_ite ChanRegs.dmaRunning, apply_ite ChanRegs.rxRemaining,
      apply_ite ChanRegs.rxReadCursor]

theorem unread_congr_regs (hrem : (t.chan p).rxRemaining = (s.chan p).rxRemaining)
    (hcur : (t.chan p).rxReadCursor = (s.chan p).rxReadCursor) (hparams : t.params = s.params)
    (hb : ∀ k, t.byteAt .rxRing p k = s.byteAt .rxRing p k) : unreadBytes t p = unreadBytes s p := by
  simp only [unreadBytes, unreadCount, hrem, hcur, hparams, hb]

theorem Effect.ringHolds_neutral (h : Effect s i t) (hl : lifecycle i = false) (hi : Neutral p i)
    (hd : Action.uartDeinit p ∉ newActions s t) (hring : RingHolds s p pending) : RingHolds t p pending := by
  have hparams := h.keepsHistory.params
  obtain ⟨hrun, hrem, hcur⟩ := h.ringRegs hl hi hd
  have hbytes (k : Nat) : t.byteAt .rxRing p k = s.byteAt .rxRing p k := by
    by_contra hne
    exact hi.not_rxByte _ (h.rxRing_writer (by rintro rfl; cases hl) hne).2
  exact
    { configured := (h.configured_eq hl).trans hring.configured
      running := hrun.trans hring.running
      ring := by
        rw [RingInRange, hrem, hcur, hparams]
        exact hring.ring
      unread := by rw [unread_congr_regs hrem hcur hparams hbytes, hparams, hring.unread] }

/-- A byte of line `p` joins those that came before it. -/
theorem RingHolds.received (hring : RingHolds s p pending) (hf : s.fatal = false) (b : Byte) :
    RingHolds (receivedState s p b) p (pending ++ [b]) := by
  obtain ⟨hpos, hcap, hcur⟩ := hring.ring
  have hreceiving : Receiving s p := ⟨hf, hring.running, hpos, hcap, hcur⟩
  have hafter := receivedState_receiving hreceiving b
  exact
    { configured := hring.configured
      running := hafter.running
      ring := ⟨hafter.remaining_pos, hafter.remaining_le, hafter.cursor_lt⟩
      unread := by
        rw [unreadBytes_receivedState hreceiving, hring.unread, newestBytes_append, receivedState_params] }

theorem unreadCount_drained (hring : RingInRange s p) (h : DrainedPair p s t) (hparams : t.params = s.params) :
    unreadCount t p = 0 := by
  obtain ⟨hpos, hcap, -⟩ := hring
  have hw := writeCursor_lt hpos hcap
  simp [unreadCount, h.chan, hparams, bytesAvailable_eq hw hw]

/-- A drain leaves nothing unread. -/
theorem RingHolds.drained (hring : RingHolds s p pending) (h : SchedDrained s t) : RingHolds t p [] := by
  obtain ⟨hpos, hcap, -⟩ := hring.ring
  have hparams := h.env.1
  have hchan := (h.pair p).chan
  exact
    { configured := h.configured.trans hring.configured
      running := by rw [hchan]; exact hring.running
      ring := by
        rw [RingInRange, hchan, hparams]
        exact ⟨hpos, hcap, writeCursor_lt hpos hcap⟩
      unread := by
        rw [unreadBytes, unreadCount_drained hring.ring (h.pair p) hparams]
        simp [newestBytes] }

/-- A drain of port `q` sends nothing on the endpoint of another port. -/
theorem transmittedBytes_sentBy_other (hv : s.params.Valid) {q : Port} (hq : q ≠ p) :
    transmittedBytes (s.params.epIn.get p) (sentBy s q) = [] :=
  transmittedBytes_eq_nil fun bytes hmem => hq (by
    obtain ⟨heq, -⟩ := mem_sentBy hmem
    injection heq with hep
    exact (epIn_injective hv hep).symm)

/-- A drain of an Idle port, or of one with nothing unread, sends all that is unread. -/
theorem transmittedBytes_sentBy_same (hidle : unreadCount s p ≠ 0 → (s.port p).txState = .idle) :
    transmittedBytes (s.params.epIn.get p) (sentBy s p) = unreadBytes s p := by
  by_cases hn : unreadCount s p = 0
  · have hempty : unreadBytes s p = [] := List.eq_nil_of_length_eq_zero (by rw [unreadBytes_length, hn])
    simp [sentBy, hn, hempty, transmittedBytes]
  · simp [sentBy, hn, hidle hn, transmittedBytes]

/-- Both drains together send on the endpoint of `p` what is unread in its ring. -/
theorem SchedDrained.transmittedBytes (h : SchedDrained s t) (hv : s.params.Valid)
    (hidle : unreadCount s p ≠ 0 → (s.port p).txState = .idle) :
    Machine.transmittedBytes (s.params.epIn.get p) (newActions s t) = unreadBytes s p := by
  rw [h.newActions_eq, transmittedBytes_append]
  cases p with
  | p0 =>
    rw [transmittedBytes_sentBy_same hidle, transmittedBytes_sentBy_other hv (by simp), List.append_nil]
  | p1 =>
    rw [transmittedBytes_sentBy_same hidle, transmittedBytes_sentBy_other hv (by simp), List.nil_append]

/-- A drain that comes before the ring has gone round sends all that came since the last one. -/
theorem RingHolds.transmittedBytes (hring : RingHolds s p pending) (h : SchedDrained s t) (hv : s.params.Valid)
    (hroom : pending.length ≤ s.params.ringCap - 1) (hidle : unreadCount s p ≠ 0 → (s.port p).txState = .idle) :
    Machine.transmittedBytes (s.params.epIn.get p) (newActions s t) = pending := by
  have hlt : pending.length < s.params.ringCap := Nat.lt_of_le_pred (Nat.lt_of_lt_of_le Nat.two_pos hv.1) hroom
  rw [h.transmittedBytes hv hidle, hring.unread, newestBytes_eq_self hlt]

/-- The ring and the streams agree before a step and after it: what is unread stays the newest of what is pending, and
what the step transmitted, followed by what is then pending, is what was pending followed by what came. -/
structure RingStep (s t : State) (p : Port) (pending pending' received : List Byte) : Prop where
  holds : RingHolds t p pending'
  stream : transmittedBytes (s.params.epIn.get p) (newActions s t) ++ pending' = pending ++ received

theorem Effect.ringStep_schedRun (h : Effect s .schedRun t) (hv : s.params.Valid)
    (hroom : pending.length ≤ s.params.ringCap - 1) (hidle : unreadCount s p ≠ 0 → (s.port p).txState = .idle)
    (hring : RingHolds s p pending) : RingStep s t p pending [] [] := by
  cases h with
  | schedIdle hc => cases hc.symm.trans hring.configured
  | schedDrained _ _ h => exact ⟨hring.drained h, by rw [hring.transmittedBytes h hv hroom hidle]⟩
  | requestDropped hpkt | requestKept _ hpkt | requestReadBack _ hpkt | requestSet _ hpkt | requestHalted hpkt
  | requestArmed hpkt => cases hpkt

theorem Effect.ringStep_rxByte {b : Byte} (h : Effect s (.uartRxByte p b) t) (hf : s.fatal = false)
    (hring : RingHolds s p pending) : RingStep s t p pending (pending ++ [b]) [b] := by
  cases h with
  | rxDiscarded hd => cases hd.symm.trans hring.running
  | rxStored => exact ⟨hring.received hf b, by simp [newActions, Machine.transmittedBytes]⟩
  | requestDropped hpkt | requestKept _ hpkt | requestReadBack _ hpkt | requestSet _ hpkt | requestHalted hpkt
  | requestArmed hpkt => cases hpkt

theorem Effect.ringStep_neutral (h : Effect s i t) (hl : lifecycle i = false) (hi : Neutral p i)
    (hd : Action.uartDeinit p ∉ newActions s t) (hring : RingHolds s p pending) :
    RingStep s t p pending pending [] := by
  refine ⟨h.ringHolds_neutral hl hi hd hring, ?_⟩
  rw [transmittedBytes_eq_nil fun bytes hm => hi.not_schedRun (h.actionOrigin _ hm).1, List.nil_append,
    List.append_nil]

/-- Every event that `LosslessRun` allows. -/
theorem Effect.ringStep (h : Effect s i t) (hf : s.fatal = false) (hv : s.params.Valid) (hl : lifecycle i = false)
    (hsched : i = .schedRun → pending.length ≤ s.params.ringCap - 1 ∧
      (unreadCount s p ≠ 0 → (s.port p).txState = .idle))
    (hd : Action.uartDeinit p ∉ newActions s t) (hring : RingHolds s p pending) (d : Draws) :
    RingStep s t p pending (pendingStep p i pending) (receivedBytes p [(d, i)]) := by
  by_cases hs : i = .schedRun
  · subst hs
    obtain ⟨hroom, hidle⟩ := hsched rfl
    exact h.ringStep_schedRun hv hroom hidle hring
  · by_cases hb : ∃ b, i = .uartRxByte p b
    · obtain ⟨b, rfl⟩ := hb
      simpa [pendingStep, receivedBytes] using h.ringStep_rxByte hf hring
    · have hi : Neutral p i := ⟨hs, fun b hb' => hb ⟨b, hb'⟩⟩
      rw [hi.pendingStep, hi.receivedBytes]
      exact h.ringStep_neutral hl hi hd hring

theorem RingHolds.withDraws (h : RingHolds s p pending) (d : Draws) : RingHolds { s with draws := d } p pending :=
  ⟨h.configured, h.running, h.ring, h.unread⟩

/-! ### The run -/

/-- The count of `LosslessRun` is the length of what is pending. -/
theorem losslessRun_cons {d : Draws} {rest : List Event} (h : LosslessRun p pending.length ((d, i) :: rest) s)
    {u : State} (hu : exec i { s with draws := d } = .next u) :
    lifecycle i = false ∧
      (i = .schedRun → pending.length ≤ s.params.ringCap - 1 ∧
        (unreadCount s p ≠ 0 → (s.port p).txState = .idle)) ∧
      Action.uartDeinit p ∉ newActions s u ∧ LosslessRun p (pendingStep p i pending).length rest u := by
  unfold LosslessRun at h
  rw [hu] at h
  obtain ⟨hl, hsched, hd, hrest⟩ := h
  refine ⟨hl, hsched, hd, ?_⟩
  cases i with
  | schedRun => exact hrest
  | uartRxByte c b =>
    by_cases hc : c = p
    · simpa [pendingStep, hc] using hrest
    · simpa [pendingStep, hc] using hrest
  | _ => exact hrest

theorem transmitted_of_losslessRun {events : List Event} {s t : State} {pending : List Byte} (hv : s.params.Valid)
    (hring : RingHolds s p pending) (hlossless : LosslessRun p pending.length events s)
    (h : runEvents events s = some t) :
    transmittedBytes (s.params.epIn.get p) (newActions s t) ++ pendingAfter p events pending =
      pending ++ receivedBytes p events := by
  induction events generalizing s pending with
  | nil =>
    cases h
    simp [newActions_self, transmittedBytes, pendingAfter, receivedBytes]
  | cons e rest ih =>
    obtain ⟨d, i⟩ := e
    obtain ⟨u, hu, hrest⟩ := runEvents_cons h
    obtain ⟨hl, hsched, hd, hlossless'⟩ := losslessRun_cons hlossless hu
    have hi : i ≠ .reset := by rintro rfl; cases hl
    have heffect := effect_of_exec hu
    have hkeeps := heffect.keepsHistory.of_draws
    obtain ⟨hholds, hstream⟩ :=
      heffect.ringStep (alive_of_exec hu hi) hv hl hsched hd (hring.withDraws d) d
    have hlater := ih (hkeeps.params ▸ hv) hholds hlossless' hrest
    rw [hkeeps.params] at hlater
    calc transmittedBytes (s.params.epIn.get p) (newActions s t) ++ pendingAfter p ((d, i) :: rest) pending
      _ = transmittedBytes (s.params.epIn.get p) (newActions s u) ++
            (transmittedBytes (s.params.epIn.get p) (newActions u t) ++
              pendingAfter p rest (pendingStep p i pending)) := by
        rw [newActions_append hkeeps (keepsHistory_of_runEvents hrest), transmittedBytes_append, List.append_assoc]
        rfl
      _ = transmittedBytes (s.params.epIn.get p) (newActions s u) ++ pendingStep p i pending ++
            receivedBytes p rest := by rw [hlater, List.append_assoc]
      _ = pending ++ receivedBytes p [(d, i)] ++ receivedBytes p rest := congrArg (· ++ _) hstream
      _ = pending ++ receivedBytes p ((d, i) :: rest) := by rw [List.append_assoc, ← receivedBytes_cons]

/-- A (re)armed ring holds nothing. -/
theorem ringHolds_rearmed (hc : s.configured = true) (hd : (s.chan p).dmaRunning = true)
    (hrem : (s.chan p).rxRemaining = s.params.ringCap) (hcur : (s.chan p).rxReadCursor = 0)
    (hring : RingInRange s p) : RingHolds s p [] where
  configured := hc
  running := hd
  ring := hring
  unread := by
    have hcount : unreadCount s p = 0 := by
      simp [unreadCount, hrem, hcur, writeCursor, bytesAvailable]
    rw [unreadBytes, hcount]
    simp [newestBytes]

end Ring

end Sys2Proof.Machine

namespace Sys2Proof.Proofs

open Sys2Proof.Machine

/-- Settles O56: over the run, what was transmitted followed by what is pending is what was received, and a last
SCHED_RUN leaves nothing pending. -/
theorem drainReconstructsTheStream : Obligations.DrainReconstructsTheStream := by
  intro events s t p hv _ hc hd hrem hcur hring hlossless h
  have hstream := transmitted_of_losslessRun hv (ringHolds_rearmed hc hd hrem hcur (hring p)) hlossless h
  rw [List.nil_append] at hstream
  refine ⟨⟨_, hstream⟩, fun before after d hevents hafter => ?_⟩
  rw [hevents, pendingAfter_schedRun hafter, List.append_nil] at hstream
  rw [hstream, hevents]

end Sys2Proof.Proofs
end
